-- ==== Sys2Proof/Word.lean ====
section
/-! DEFINITION. The plain data types of the block: the byte (R6), the 16-bit init-table entry (R82), the two buffers
(R30, R31) and the pair of button levels (R32). -/

namespace Sys2Proof

/-- A register number, a value or a report byte: 8 bits, bit 0 the least significant (R6, R7). -/
abbrev Byte := BitVec 8

/-- One init-table entry, format `IS16`: 16 bits (R82). -/
abbrev Entry := BitVec 16

/-- The write-side buffer `TXBUF[0..1]` (R30). -/
abbrev TxBuf := Vector Byte 2

/-- A report, and the buffer `RXBUF[0..5]` that holds one: six bytes, in the order they arrived (R31, R56). -/
abbrev Report := Vector Byte 6

/-- The document's ButtonState, positive logic: true means pressed (R32, R154). -/
structure ButtonState where
  zPressed : Bool
  cPressed : Bool
  deriving DecidableEq, Repr, Inhabited

end Sys2Proof
end

