-- ==== Sys2Proof/Syntax.lean ====
section
/-! DEFINITION. The operations of the NSC (R91), what selects them (R80, R82, R87), and the messages that cross its ports
(R21, R22, R23), as the spec's own names. The bit codes of these names are in Decode.lean and Machine/Ports.lean. -/

namespace Sys2Proof

/-- The nine operations of the operation map (R91), one constructor per row of the opcode table. -/
inductive Instr where
  /-- `INIT`, the command that runs the handshake (R160). -/
  | init
  /-- `POLL`, the command that runs one poll cycle (R161). -/
  | poll
  /-- `WR reg, val`, the table instruction: write one init step to the device (R110). -/
  | wr (reg val : Byte)
  /-- `SETTLE`: the settle delay, then advance (R111). -/
  | settle
  /-- `PACE`: the pacing delay (R130). -/
  | pace
  /-- `ARM`: the arming write (R131). -/
  | arm
  /-- `RDREP`: read the report (R132). -/
  | rdrep
  /-- `DECODE`: compute the ButtonState from the report (R150). -/
  | decode
  /-- `PUBLISH`: hand the levels to the sink and answer the host (R162). -/
  | publish
  deriving DecidableEq, Repr

/-- The values of `PH` (R29): which micro-operation runs next, or none. -/
inductive Phase where
  | idle | iWr | iSettle | pPace | pArm | pRead | pDecode | pPublish
  deriving DecidableEq, Repr

/-- What selects an operation (R91): the `op` bit of a `CMD` message, an init-table entry, or the code of `PH`. -/
inductive Selector where
  | cmd (op : BitVec 1)
  | entry (word : Entry)
  | phase (code : BitVec 3)
  deriving DecidableEq, Repr

/-- The names under which the decoder refuses. -/
inductive DecodeError where
  /-- `PH` code 0b000, `IDLE`: no micro-operation (R87). -/
  | idlePhase
  /-- `PH` code 0b001, `I_WR`, alone: the operation needs its table entry (R91). -/
  | entryNeeded
  /-- A byte whose bits above the 3-bit code are not zero: no format has them (R80, R87). -/
  | reservedBits
  /-- Neither one byte nor one 16-bit entry: no format has another length (R96). -/
  | badLength
  deriving DecidableEq, Repr

/-- The four error kinds (R190 to R193): the argument of `Faulted(reason)` and of `Err(reason)`. -/
inductive ErrKind where
  | shortWrite | transportError | armFailure | readFailure
  deriving DecidableEq, Repr

/-- The session state `SESSION` (R26). -/
inductive Session where
  | uninitialized | ready | faulted
  deriving DecidableEq, Repr

/-- A transaction the NSC asks of the transport (R22). -/
inductive BusRequest where
  /-- `BusSend(bytes)` (R51). -/
  | send (bytes : List Byte)
  /-- `BusRecv(n)` (R52). -/
  | recv (n : Nat)
  deriving DecidableEq, Repr

/-- The transport's answer to a send: a bus-level failure, or the count of bytes accepted (R51). -/
inductive SendAnswer where
  | err
  | count (k : Nat)
  deriving DecidableEq, Repr

/-- The transport's answer to a receive: a bus-level failure, or `Data(k, d)`, where `k` is the length of `d` (R52). -/
inductive RecvAnswer where
  | err
  | data (d : List Byte)
  deriving DecidableEq, Repr

/-- A response to the host (R21). -/
inductive Response where
  | ok
  | okButtons (z c : Bool)
  | err (reason : ErrKind)
  | rejected
  deriving DecidableEq, Repr

/-- The two keys of the sink port (R23). -/
inductive Button where
  | z | c
  deriving DecidableEq, Repr

/-- A message to the event sink (R23); `level` true means pressed. -/
inductive SinkMsg where
  | key (id : Button) (level : Bool)
  | sync
  deriving DecidableEq, Repr

/-- One move of the host (R20, R21): the script items of R97. A `CMD` carries its `op` bit (R80). -/
inductive HostMove where
  | reset
  | cmd (op : BitVec 1)
  deriving DecidableEq, Repr

/-- The events of a trace (R11). -/
inductive Event where
  /-- `RESET`, host to NSC. -/
  | reset
  /-- `CMD(op)`, host to NSC. -/
  | cmd (op : BitVec 1)
  /-- `TX[bytes] -> answer`, bytes in wire order. -/
  | tx (bytes : List Byte) (answer : SendAnswer)
  /-- `RX(n) -> answer`. -/
  | rx (n : Nat) (answer : RecvAnswer)
  /-- `DELAY(t)`, microseconds. -/
  | delay (t : Nat)
  /-- `KEY(id, level)` or `SYNC`, NSC to sink. -/
  | sink (msg : SinkMsg)
  /-- `RSP(r)`, NSC to host. -/
  | rsp (r : Response)
  deriving DecidableEq, Repr

/-- One line of the table part of a test program (R97), pseudo-instructions included (R98). -/
inductive TableLine where
  | wr (reg val : Byte)
  | tableA
  | tableB
  deriving DecidableEq, Repr

end Sys2Proof
end

