-- ==== Sys2Proof/WellFormed.lean ====
section
/-! DEFINITION. Well-formedness of the syntax. The spec calls no operation's operands illegal (R82, R92, R93), so every
instruction is well formed; the checks that can fail are those on the lengths of bus requests (R58, R89), on selectors
(R87) and on events (R11). -/

namespace Sys2Proof

/-- Every operation is well formed: no `CMD` code is reserved (R92), no table entry is reserved or illegal (R82, R93), and
the micro-operations have no operands (R90). -/
def Instr.wf : Instr → Bool
  | .init => true
  | .poll => true
  | .wr _ _ => true
  | .settle => true
  | .pace => true
  | .arm => true
  | .rdrep => true
  | .decode => true
  | .publish => true

/-- A send carries 1 or 2 bytes and a receive asks for 6 (R58, R89). -/
def BusRequest.wf : BusRequest → Bool
  | .send bytes => bytes.length == 1 || bytes.length == 2
  | .recv n => n == 6

/-- A selector that selects an operation by itself: `PH` codes 0b000 and 0b001 do not (R87, R91). -/
def Selector.wf : Selector → Bool
  | .cmd _ => true
  | .entry _ => true
  | .phase code => code != 0b000#3 && code != 0b001#3

end Sys2Proof
end

