-- ==== Sys2Proof/Decode.lean ====
section
/-! DEFINITION. The codes of the selectors (R80, R82, R87), the decoder, total and refusing by name, the encoder, the words
as spec/opcode_table.json numbers their bits, and the assembly of a table (R97, R98). -/

namespace Sys2Proof

/-- `CMD.op` of `INIT` (R80; the spec's decision D2). -/
def opInit : BitVec 1 := 0b0#1

/-- `CMD.op` of `POLL` (R80; D2). -/
def opPoll : BitVec 1 := 0b1#1

/-- The 3-bit codes of `PH` (R87; the spec's decision D5). -/
def Phase.code : Phase → BitVec 3
  | .idle => 0b000#3
  | .iWr => 0b001#3
  | .iSettle => 0b010#3
  | .pPace => 0b011#3
  | .pArm => 0b100#3
  | .pRead => 0b101#3
  | .pDecode => 0b110#3
  | .pPublish => 0b111#3

/-- The phase a code names (R87): every 3-bit value is some phase. -/
def Phase.ofCode (code : BitVec 3) : Phase :=
  if code = 0b000#3 then .idle
  else if code = 0b001#3 then .iWr
  else if code = 0b010#3 then .iSettle
  else if code = 0b011#3 then .pPace
  else if code = 0b100#3 then .pArm
  else if code = 0b101#3 then .pRead
  else if code = 0b110#3 then .pDecode
  else .pPublish

/-- The field `reg` of an entry, bits 15:8 (R82). -/
def entryReg (word : Entry) : Byte := word.extractLsb' 8 8

/-- The field `val` of an entry, bits 7:0 (R82). -/
def entryVal (word : Entry) : Byte := word.extractLsb' 0 8

/-- The entry word `reg ++ val` (R82). -/
def entryOf (reg val : Byte) : Entry := reg ++ val

/-- The decoder (R91): the operation a selector selects. -/
def decode : Selector → Except DecodeError Instr
  | .cmd op => if op = opInit then .ok .init else .ok .poll
  | .entry word => .ok (.wr (entryReg word) (entryVal word))
  | .phase code =>
    match Phase.ofCode code with
    | .idle => .error .idlePhase
    | .iWr => .error .entryNeeded
    | .iSettle => .ok .settle
    | .pPace => .ok .pace
    | .pArm => .ok .arm
    | .pRead => .ok .rdrep
    | .pDecode => .ok .decode
    | .pPublish => .ok .publish

/-- The encoder: the selector of each operation, written from R80, R82 and R87. -/
def encode : Instr → Selector
  | .init => .cmd 0b0#1
  | .poll => .cmd 0b1#1
  | .wr reg val => .entry (entryOf reg val)
  | .settle => .phase 0b010#3
  | .pace => .phase 0b011#3
  | .arm => .phase 0b100#3
  | .rdrep => .phase 0b101#3
  | .decode => .phase 0b110#3
  | .publish => .phase 0b111#3

/-- The selector that a list of bytes spells, least significant byte first. One byte is a `CMD` bit (0, 1) or a `PH` code
(2 to 7), the words of the opcode table's rows of less than 8 bits; two bytes are one table entry. DESIGN CHOICE, log 13:
the spec's ports carry messages, not bytes. -/
def selectorOfBytes : List Byte → Except DecodeError Selector
  | [b] =>
    if b.toNat < 2 then .ok (.cmd (b.setWidth 1))
    else if b.toNat < 8 then .ok (.phase (b.setWidth 3))
    else .error .reservedBits
  | [lo, hi] => .ok (.entry (hi ++ lo))
  | _ => .error .badLength

/-- The decoder on bytes: total, refusing by name. -/
def decodeBytes (bytes : List Byte) : Except DecodeError Instr :=
  match selectorOfBytes bytes with
  | .ok sel => decode sel
  | .error e => .error e

/-- The bytes of a selector, least significant byte first (log 13). -/
def bytesOfSelector : Selector → List Byte
  | .cmd op => [op.setWidth 8]
  | .entry word => [entryVal word, entryReg word]
  | .phase code => [code.setWidth 8]

/-- The bytes of an operation (log 13). -/
def encodeBytes (i : Instr) : List Byte := bytesOfSelector (encode i)

/-- The bytes of a word of the opcode table. A row of at most one byte has its 1 or 3 bits at the bottom, and the bits above
its width (which the row's mask leaves out) are dropped; a row of 16 bits is an entry, and so is a row the table gives no
bits at all (`WR` fixes none). DESIGN CHOICE, log 13. -/
def tableBytes (nbits w : Nat) : Option (List Byte) :=
  if nbits = 0 ∨ (8 < nbits ∧ nbits ≤ 16) then some [BitVec.ofNat 8 w, BitVec.ofNat 8 (w / 256)]
  else if nbits ≤ 8 then some [BitVec.ofNat 8 (w % 8)]
  else none

/-- The selector of a word of the opcode table. -/
def tableSelector (nbits w : Nat) : Option Selector :=
  match tableBytes nbits w with
  | none => none
  | some bytes =>
    match selectorOfBytes bytes with
    | .ok sel => some sel
    | .error _ => none

/-- What the decoder reads from a word of the opcode table (none where it refuses). -/
def decodeTableWord (nbits w : Nat) : Option Instr :=
  match tableSelector nbits w with
  | none => none
  | some sel =>
    match decode sel with
    | .ok i => some i
    | .error _ => none

/-- How many bits, in whole bytes, the opcode table gives an operation's row. -/
def tableBits : Instr → Nat
  | .wr _ _ => 16
  | .init | .poll | .settle | .pace | .arm | .rdrep | .decode | .publish => 8

/-- An operation's word, its bits numbered as the opcode table numbers them. -/
def tableWord (i : Instr) : Nat :=
  match encode i with
  | .cmd op => op.toNat
  | .entry word => word.toNat
  | .phase code => code.toNat

/-- What one line of a program's table part assembles to (R97); `.tableA` and `.tableB` are the two pseudo-instructions
(R98). -/
def assembleLine : TableLine → List Entry
  | .wr reg val => [entryOf reg val]
  | .tableA => [entryOf 0xF0#8 0x55#8, entryOf 0xFB#8 0x00#8]
  | .tableB => [entryOf 0x52#8 0xF0#8, entryOf 0x52#8 0x55#8]

/-- The init table a program's table part assembles to, in order (R97). -/
def assembleTable : List TableLine → List Entry
  | [] => []
  | line :: rest => assembleLine line ++ assembleTable rest

end Sys2Proof
end

