-- ==== Sys2Proof/Config.lean ====
section
/-! DEFINITION. What an implementation fixes and what the spec leaves free. Every constant here is opaque: it has no body,
so no proof can rest on its value. -/

namespace Sys2Proof

/-- The free value behind `Draw(lo, hi)`: "a natural number `t` with `lo <= t <= hi`, chosen by no rule of this spec"
(R10, R208). The arguments are the instance's source of free values and how many it has used: two instances have two
sources, so how their draws relate is as open as how two draws of one instance do (R211, N9). `Machine.drawValue` brings
the value between the bounds. Log 7, log 31. -/
opaque Config.draw : Nat → Nat → Nat

/-- The content of `TXBUF` after a reset: "unspecified" (R40). The arguments are those of `Config.draw`. Log 5, log 31. DESIGN
CHOICE. -/
opaque Config.resetTx : Nat → Nat → TxBuf

/-- The content of `RXBUF` after a reset: "unspecified" (R40). Log 5. DESIGN CHOICE. -/
opaque Config.resetRx : Nat → Nat → Report

/-- The content of `BTN` after a reset: "unspecified, not readable" (R40). Log 5. DESIGN CHOICE. -/
opaque Config.resetBtn : Nat → Nat → ButtonState

/-- How far `CNT_W`, the width of a transfer count on the transport port, exceeds its least value 3 (R6, R89, D27). Log 23. -/
opaque Config.cntWExtra : Nat

/-- `CNT_W`: "at least 3 bits" (R6, R89). -/
def Config.cntW : Nat := 3 + Config.cntWExtra

/-- `N_MAX`, the largest table a physical realisation stores: open (R6, D8). Read only by the premise
`Safety.FitsStore`. Log 23. -/
opaque Config.nMax : Nat

/-- `POLL_INTERVAL`, the host's cadence in microseconds: open (R6, R209, D22). No definition reads it. Log 23. -/
opaque Config.pollInterval : Nat

/-- `F_CLK`, the clock of a physical realisation: open (R6, D28). No definition reads it. Log 23. -/
opaque Config.fClk : Nat

end Sys2Proof
end

