-- ==== Sys2Proof/Machine/State.lean ====
section
/-! DEFINITION. The state of the machine as plain data, its value after reset, and the reasons a step can stop. -/

namespace Sys2Proof.Machine

/-- The state. The first eight fields are the NSC's own (R26 to R32, R40), the next five are the environment's inputs that
the step reads (R20, R21, R22, R25; log 1, log 4), the last three are the model's own (log 6, log 8, log 31). -/
structure State where
  /-- `SESSION` (R26). -/
  session : Session
  /-- `REASON` (R27): `none` is the spec's own value `None`. -/
  reason : Option ErrKind
  /-- `STEP` (R28): the index of the next init step, the block's program counter. -/
  stepIx : Nat
  /-- `PH` (R29): the phase. -/
  ph : Phase
  /-- `TXBUF[0..1]` (R30). -/
  txbuf : TxBuf
  /-- `RXBUF[0..5]` (R31). -/
  rxbuf : Report
  /-- `BTN` (R32). -/
  btn : ButtonState
  /-- The transaction outstanding on the transport port, if any (R40, R59, R244; log 29). -/
  busReq : Option BusRequest
  /-- `INIT_TABLE` (R25): presented by the host; no operation writes it (R70). Log 4. -/
  initTable : List Entry
  /-- The host's moves still to be made, first one first (R97). Each is made in `IDLE` (R167, R168). Log 1. -/
  hostScript : List HostMove
  /-- The reset input is asserted, outside the script (R20, R233). Log 1. -/
  resetIn : Bool
  /-- The answers the transport will give to sends, in order; none left means no answer yet (R51, R244). Log 1, 2, 3. -/
  sendAnswers : List SendAnswer
  /-- The answers the transport will give to receives, in order (R52, R244). Log 1, 2, 3. -/
  recvAnswers : List RecvAnswer
  /-- Which source of free values (R24) this instance has: an argument of the opaque constants of Config. Each instance has its
  own (R211), so nothing relates the draws of two of them. It is no identifier of the NSC: no step changes it, no step
  branches on it, no port shows it. Log 31. -/
  freeSource : Nat
  /-- How many free values have been used: the other argument of the opaque constants of Config. Log 6, 7. -/
  freeIx : Nat
  /-- The events so far, oldest first (R11, R173). Log 8. -/
  trace : List Event
  deriving DecidableEq, Repr

/-- Why the machine stops. -/
inductive Fault where
  /-- `PH` is `I_WR` and `STEP` is not the index of a table entry: there is no entry to write (R50). Raised by the fetch; R37 (b)
  excludes it from every reachable state. Safe: the model stops where the spec has no state. Log 12. -/
  | tableEntryAbsent
  deriving DecidableEq, Repr

/-- Why the machine gives a situation no meaning. -/
inductive Refusal where
  /-- Raised by `exec` for an operation that has no meaning yet; no arm does. Safe. -/
  | notModelled (mnemonic : String)
  /-- `RESET` while a command is in progress: "a model refuses a reset with `PH != IDLE` (no step)" (R168, R233, U6). Raised by
  `resetInput`. Safe: the model stops. Log 9. -/
  | resetWhileBusy
  /-- A command while one is in progress: "the host port accepts nothing" (R167, U11). Raised by the meanings of `INIT` and `POLL`;
  the step takes a command in `IDLE` only, so it never raises it. Safe: the model stops. Log 10. -/
  | commandWhileBusy
  /-- A micro-operation in a phase that does not select it: the precondition of its rule fails (R110, R111, R130 to R132, R150,
  R162). Raised by the meanings of the seven micro-operations; the step never raises it. Safe: the model stops. Log 11. -/
  | notInPhase (needed : Phase)
  /-- A selector that selects no operation (R87). Raised by the step on what the decoder refuses; no fetch yields such a
  selector. Safe: the model stops. -/
  | undecodable (why : DecodeError)
  deriving DecidableEq, Repr

/-- The instance with this source of free values right after reset (R40, R231): the four values the spec gives, no transaction
outstanding, nothing sent. The buffers hold free values, since R40 leaves them unspecified and forbids assuming zero (log 5).
Nothing is presented by the environment: no table, no move, no answer (log 1, log 4, log 14). -/
def State.resetOn (source : Nat) : State where
  session := .uninitialized
  reason := none
  stepIx := 0
  ph := .idle
  txbuf := Config.resetTx source 0
  rxbuf := Config.resetRx source 0
  btn := Config.resetBtn source 0
  busReq := none
  initTable := []
  hostScript := []
  resetIn := false
  sendAnswers := []
  recvAnswers := []
  freeSource := source
  freeIx := 1
  trace := []

/-- The machine right after reset: the instance with source 0. Another instance is `State.resetOn` of another source (R211;
log 31). -/
def State.reset : State := State.resetOn 0

/-- The next state after asking something of the transport: still waiting for the answer, or answered. -/
inductive BusResult (α : Type) where
  | waiting (s : State)
  | answered (a : α) (s : State)

/-- What the step finds to do: wait in `IDLE` for a command, take the reset input, run an operation, or stop. -/
inductive Fetched where
  | wait
  | reset (s : State)
  | instr (i : Instr) (s : State)
  | undecodable (why : DecodeError)
  | fault (f : Fault)

end Sys2Proof.Machine
end

