-- ==== Sys2Proof/Machine/Operands.lean ====
section
/-! DEFINITION. The operands of the operations (R90): the constants and the table entry. -/

namespace Sys2Proof.Machine

/-- `T_SETTLE`, microseconds: "exactly 1 ms" (R6, R111). -/
def tSettle : Nat := 1000

/-- `T_PACE_MIN`, microseconds (R6, R130). -/
def tPaceMin : Nat := 10000

/-- `T_PACE_MAX`, microseconds, included (R6, R130). -/
def tPaceMax : Nat := 20000

/-- `WR_LEN`: bytes in one init write transaction (R6, R58). -/
def wrLen : Nat := 2

/-- `ARM_LEN`: bytes in the arming write (R6, R58). -/
def armLen : Nat := 1

/-- `REPORT_LEN`: bytes in one report (R6, R58). -/
def reportLen : Nat := 6

/-- `ARM_BYTE`: "a single zero byte" (R84). -/
def armByte : Byte := 0x00#8

/-- The mask that isolates the Z switch, bit 0 of byte 5 (R57). -/
def maskZ : Byte := 0b01#8

/-- The mask that isolates the C switch, bit 1 of byte 5 (R57). -/
def maskC : Byte := 0b10#8

/-- The entry `INIT_TABLE[STEP]`, read when `WR` starts (R70); none where `STEP` is outside the table. -/
def currentEntry (s : State) : Option Entry := s.initTable[s.stepIx]?

/-- `N`, the length of `INIT_TABLE` (R6). -/
def tableLen (s : State) : Nat := s.initTable.length

/-- The 2-byte transaction of an init step, format `W2`: register byte first (R55, R83; the spec's decision D7, log 17). -/
def w2Bytes (buf : TxBuf) : List Byte := [buf[0], buf[1]]

/-- The 1-byte arming write, format `W1` (R84). -/
def w1Bytes (buf : TxBuf) : List Byte := [buf[0]]

/-- The six bytes of a list of six bytes, `RXBUF[i] = report[i]` (R56). -/
def reportOf (d : List Byte) (h : d.length = reportLen) : Report := ⟨d.toArray, by simpa [reportLen] using h⟩

end Sys2Proof.Machine
end

