-- ==== Sys2Proof/Machine/Flags.lean ====
section
/-! DEFINITION. The conditions the operations test. The block has no flags: each condition "is computed and consumed inside
one micro-operation and is not kept" (R34). The decoder's function stands here too (R150). -/

namespace Sys2Proof.Machine

/-- The failure an init write's answer means, if any (R110): the error answer is tested first (R199), then "fewer than 2 bytes". A count
above 2 is a success (R54; log 20). -/
def wrFailure : SendAnswer → Option ErrKind
  | .err => some .transportError
  | .count k => if k < wrLen then some .shortWrite else none

/-- The failure an arming write's answer means, if any (R131): an error answer too is `ArmFailure` (the spec's decision D11, log 19). -/
def armFailure : SendAnswer → Option ErrKind
  | .err => some .armFailure
  | .count k => if k < armLen then some .armFailure else none

/-- `STEP == N`: the step just settled was the last (R111). -/
def lastStepDone (s : State) : Bool := s.stepIx == tableLen s

/-- `z_pressed` of byte 5: bit 0 is 0 (R150, R154: 0 means pressed). -/
def zPressedOf (b : Byte) : Bool := b &&& maskZ == 0#8

/-- `c_pressed` of byte 5: bit 1 is 0 (R150, R154). -/
def cPressedOf (b : Byte) : Bool := b &&& maskC == 0#8

/-- `decode(report)`: byte 5 alone decides (R150, R151). -/
def decodeReport (report : Report) : ButtonState := ⟨zPressedOf report[5], cPressedOf report[5]⟩

end Sys2Proof.Machine
end

