-- ==== Sys2Proof/Machine/Ops.lean ====
section
/-! DEFINITION. The named operations over the state: writes of the registers (R9), the primitives of R10 (`BusSend`, `BusRecv`,
`Delay`, `Draw`, `SinkKey`, `SinkSync`, `Respond`, `raise Fault`), the construction of a session (R168), and the phase
that selects a micro-operation. -/

namespace Sys2Proof.Machine

/-! ### Register writes -/

/-- `SESSION <- v`. -/
def setSession (v : Session) (s : State) : State := { s with session := v }

/-- `REASON <- v`. -/
def setReason (v : Option ErrKind) (s : State) : State := { s with reason := v }

/-- `STEP <- v`. -/
def setStep (v : Nat) (s : State) : State := { s with stepIx := v }

/-- `PH <- v`. -/
def setPhase (v : Phase) (s : State) : State := { s with ph := v }

/-- `TXBUF[0] <- b`. -/
def setTx0 (b : Byte) (s : State) : State := { s with txbuf := s.txbuf.set 0 b }

/-- `TXBUF[1] <- b`. -/
def setTx1 (b : Byte) (s : State) : State := { s with txbuf := s.txbuf.set 1 b }

/-- `for i in 0..5: RXBUF[i] <- r[i]`. -/
def setRx (r : Report) (s : State) : State := { s with rxbuf := r }

/-- `BTN <- b`. -/
def setBtn (b : ButtonState) (s : State) : State := { s with btn := b }

/-- The transaction outstanding on the transport port (log 29). -/
def setBusReq (r : Option BusRequest) (s : State) : State := { s with busReq := r }

/-! ### The environment's inputs and the trace -/

/-- The host's moves still to be made. -/
def setHostScript (l : List HostMove) (s : State) : State := { s with hostScript := l }

/-- The level of the reset input. -/
def setResetIn (b : Bool) (s : State) : State := { s with resetIn := b }

/-- The table the host presents. -/
def setInitTable (t : List Entry) (s : State) : State := { s with initTable := t }

/-- The answers left for sends. -/
def setSendAnswers (l : List SendAnswer) (s : State) : State := { s with sendAnswers := l }

/-- The answers left for receives. -/
def setRecvAnswers (l : List RecvAnswer) (s : State) : State := { s with recvAnswers := l }

/-- One more free value has been used. -/
def useFree (s : State) : State := { s with freeIx := s.freeIx + 1 }

/-- One event, the latest (R11, R65). -/
def emit (e : Event) (s : State) : State := { s with trace := s.trace ++ [e] }

/-! ### The primitives of R10 -/

/-- `BusSend(bytes)` (R51): the transaction is outstanding until the transport answers; the answer ends it. No answer left means
that none has come yet, and the NSC waits (R59, R244; log 3). -/
def busSend (bytes : List Byte) (s : State) : BusResult SendAnswer :=
  match s.sendAnswers with
  | [] => .waiting (setBusReq (some (.send bytes)) s)
  | a :: rest => .answered a (emit (.tx bytes a) (setBusReq none (setSendAnswers rest s)))

/-- `BusRecv(n)` (R52), in the same way. -/
def busRecv (n : Nat) (s : State) : BusResult RecvAnswer :=
  match s.recvAnswers with
  | [] => .waiting (setBusReq (some (.recv n)) s)
  | a :: rest => .answered a (emit (.rx n a) (setBusReq none (setRecvAnswers rest s)))

/-- `Delay(t)`: "the trace event `DELAY(t)` and nothing else" (R207, R12; log 25). -/
def delay (t : Nat) (s : State) : State := emit (.delay t) s

/-- The value `Draw(lo, hi)` gives (R208): the free value, brought between the bounds. Every value between them is some free
value's (log 7). It is the instance's own: another instance draws from another source (R211; log 31). -/
def drawValue (lo hi : Nat) (s : State) : Nat := lo + Config.draw s.freeSource s.freeIx % (hi - lo + 1)

/-- `SinkKey(id, level)` (R23). -/
def sinkKey (id : Button) (level : Bool) (s : State) : State := emit (.sink (.key id level)) s

/-- `SinkSync()` (R23). -/
def sinkSync (s : State) : State := emit (.sink .sync) s

/-- `Respond(r)` (R21). -/
def respond (r : Response) (s : State) : State := emit (.rsp r) s

/-- `raise Fault(reason)`: the one fault-entry sequence (R200). `STEP`, `TXBUF` and `RXBUF` are left as they are. There is no return
from it (R203); the way out is `constructSession`. -/
def raiseFault (reason : ErrKind) (s : State) : State :=
  respond (.err reason) (setPhase .idle (setReason (some reason) (setSession .faulted s)))

/-- The effect of `RESET` (R168, R231): a new session; the buffers hold fresh free values (R40; log 5, log 6); no transaction is
outstanding; no message goes out on any port. It takes the assertion of the reset input with it. -/
def constructSession (s : State) : State :=
  { s with
    session := .uninitialized
    reason := none
    stepIx := 0
    ph := .idle
    txbuf := Config.resetTx s.freeSource s.freeIx
    rxbuf := Config.resetRx s.freeSource s.freeIx
    btn := Config.resetBtn s.freeSource s.freeIx
    busReq := none
    resetIn := false
    freeIx := s.freeIx + 1
    trace := s.trace ++ [.reset] }

/-! ### Where an operation may run -/

/-- A command is in progress, and its response outstanding, exactly when `PH != IDLE` (R29, R40). -/
def commandInProgress (s : State) : Bool := s.ph != .idle

/-- A command is accepted only in `IDLE` (R167); otherwise the host has no move. Log 10. -/
def whenIdle (s : State) (k : Host.Outcome State Fault Refusal) : Host.Outcome State Fault Refusal :=
  if s.ph = .idle then k else .refused .commandWhileBusy

/-- A micro-operation runs in the phase its rule's precondition names. Log 11. -/
def inPhase (p : Phase) (s : State) (k : Host.Outcome State Fault Refusal) : Host.Outcome State Fault Refusal :=
  if s.ph = p then k else .refused (.notInPhase p)

end Sys2Proof.Machine
end

