-- ==== Sys2Proof/Machine/InitSequencer.lean ====
section
/-! DEFINITION. The document's InitSequencer: `WR` and `SETTLE` (40_init_sequencer.md). -/

namespace Sys2Proof.Machine

/-- How `WR` goes on once its transaction has been answered (R110). No settle delay follows a failure (R113; log 18). -/
def wrAnswered (a : SendAnswer) (s : State) : State :=
  match wrFailure a with
  | some reason => raiseFault reason s
  | none => setPhase .iSettle s

/-- `WR reg, val` (R110). -/
def execWr (reg val : Byte) (s : State) : Host.Outcome State Fault Refusal :=
  inPhase .iWr s <|
    let t := setTx1 val (setTx0 reg s)
    match busSend (w2Bytes t.txbuf) t with
    | .waiting u => .next u
    | .answered a u => .next (wrAnswered a u)

/-- The end of an `INIT` that succeeded (R111, R160): `SESSION <- Ready`, `PH <- IDLE`, `Respond(Ok)`. -/
def initDone (s : State) : State := respond .ok (setPhase .idle (setSession .ready s))

/-- `SETTLE` (R111): the delay follows every successful write, the last one included (the spec's decision D9, log 18). -/
def execSettle (s : State) : Host.Outcome State Fault Refusal :=
  inPhase .iSettle s <|
    let t := setStep (s.stepIx + 1) (delay tSettle s)
    if lastStepDone t then .next (initDone t) else .next (setPhase .iWr t)

end Sys2Proof.Machine
end

