-- ==== Sys2Proof/Machine/DeviceSession.lean ====
section
/-! DEFINITION. The document's DeviceSession: the commands `INIT` and `POLL`, the micro-operation `PUBLISH`, and the reset input
(43_device_session.md). -/

namespace Sys2Proof.Machine

/-- `INIT` (R160): rejected unless `Uninitialized` (R164); with an empty table it ends at once (R114). -/
def execInit (s : State) : Host.Outcome State Fault Refusal :=
  whenIdle s <|
    if s.session = .uninitialized then
      let t := setStep 0 s
      if tableLen t = 0 then .next (respond .ok (setSession .ready t)) else .next (setPhase .iWr t)
    else .next (respond .rejected s)

/-- `POLL` (R161): rejected unless `Ready`, before everything else (R163, R165, R198). -/
def execPoll (s : State) : Host.Outcome State Fault Refusal :=
  whenIdle s <|
    if s.session = .ready then .next (setPhase .pPace s) else .next (respond .rejected s)

/-- `PUBLISH` (R162): Z, then C, then the sync, then the response (the spec's decision D15, log 21). -/
def execPublish (s : State) : Host.Outcome State Fault Refusal :=
  inPhase .pPublish s <|
    let t := sinkSync (sinkKey .c s.btn.cPressed (sinkKey .z s.btn.zPressed s))
    .next (respond (.okButtons s.btn.zPressed s.btn.cPressed) (setPhase .idle t))

/-- The reset input (R168): a new session in `IDLE`; while a command is in progress it has no meaning and the model refuses
(R233; log 9). -/
def resetInput (s : State) : Host.Outcome State Fault Refusal :=
  if s.ph = .idle then .next (constructSession s) else .refused .resetWhileBusy

end Sys2Proof.Machine
end

