-- ==== Sys2Proof/Machine/PollCycle.lean ====
section
/-! DEFINITION. The first three steps of the document's PollCycle: `PACE`, `ARM`, `RDREP` (41_poll_cycle.md). -/

namespace Sys2Proof.Machine

/-- `PACE` (R130): the pacing delay, drawn afresh. -/
def execPace (s : State) : Host.Outcome State Fault Refusal :=
  inPhase .pPace s <|
    let t := drawValue tPaceMin tPaceMax s
    .next (setPhase .pArm (delay t (useFree s)))

/-- How `ARM` goes on once its transaction has been answered (R131). -/
def armAnswered (a : SendAnswer) (s : State) : State :=
  match armFailure a with
  | some reason => raiseFault reason s
  | none => setPhase .pRead s

/-- `ARM` (R131): the arming write; no delay follows it (R137). -/
def execArm (s : State) : Host.Outcome State Fault Refusal :=
  inPhase .pArm s <|
    let t := setTx0 armByte s
    match busSend (w1Bytes t.txbuf) t with
    | .waiting u => .next u
    | .answered a u => .next (armAnswered a u)

/-- How `RDREP` goes on once its transaction has been answered (R132): any count but 6, and an error answer, is `ReadFailure` (the
spec's decision D11, log 19), and the bytes are discarded (R62). -/
def rdrepAnswered (a : RecvAnswer) (s : State) : State :=
  match a with
  | .err => raiseFault .readFailure s
  | .data d => if h : d.length = reportLen then setPhase .pDecode (setRx (reportOf d h) s) else raiseFault .readFailure s

/-- `RDREP` (R132). -/
def execRdrep (s : State) : Host.Outcome State Fault Refusal :=
  inPhase .pRead s <|
    match busRecv reportLen s with
    | .waiting u => .next u
    | .answered a u => .next (rdrepAnswered a u)

end Sys2Proof.Machine
end

