-- ==== Sys2Proof/Machine/ReportDecoder.lean ====
section
/-! DEFINITION. The document's ReportDecoder: `DECODE` (42_report_decoder.md). -/

namespace Sys2Proof.Machine

/-- `DECODE` (R150). -/
def execDecode (s : State) : Host.Outcome State Fault Refusal :=
  inPhase .pDecode s (.next (setPhase .pPublish (setBtn (decodeReport s.rxbuf) s)))

end Sys2Proof.Machine
end

