-- ==== Sys2Proof/Machine/Dispatch.lean ====
section
/-! DEFINITION. The dispatch: one arm per operation of the opcode table (R91). -/

namespace Sys2Proof.Machine

-- Each arm is one direct call of its operation's meaning.
def exec (i : Instr) (s : State) : Host.Outcome State Fault Refusal :=
  match i with
  | .init => Sys2Proof.Machine.execInit s
  | .poll => Sys2Proof.Machine.execPoll s
  | .wr reg val => Sys2Proof.Machine.execWr reg val s
  | .settle => Sys2Proof.Machine.execSettle s
  | .pace => Sys2Proof.Machine.execPace s
  | .arm => Sys2Proof.Machine.execArm s
  | .rdrep => Sys2Proof.Machine.execRdrep s
  | .decode => Sys2Proof.Machine.execDecode s
  | .publish => Sys2Proof.Machine.execPublish s

end Sys2Proof.Machine
end

