-- ==== Sys2Proof/Machine/Fetch.lean ====
section
/-! DEFINITION. What the step finds to do next (R29, R91, R167), and placing a selector where the step will find it. -/

namespace Sys2Proof.Machine

/-- An operation fetched from its selector. -/
def fetchSelector (sel : Selector) (s : State) : Fetched :=
  match decode sel with
  | .ok i => .instr i s
  | .error e => .undecodable e

/-- The fetch. The reset input comes first (log 1). In `IDLE` the host makes its next move, or the NSC waits (R40, R167; log 15); a
command that is taken is an event (R11). In `I_WR` the operation is the table entry `STEP` names (R70, R110), and in the other
phases the code of `PH` selects it (R87). -/
def fetch (s : State) : Fetched :=
  if s.resetIn then .reset s
  else
    match s.ph with
    | .idle =>
      match s.hostScript with
      | [] => .wait
      | .reset :: rest => .reset (setHostScript rest s)
      | .cmd op :: rest => fetchSelector (.cmd op) (emit (.cmd op) (setHostScript rest s))
    | .iWr =>
      match currentEntry s with
      | none => .fault .tableEntryAbsent
      | some word => fetchSelector (.entry word) s
    | .iSettle => fetchSelector (.phase Phase.iSettle.code) s
    | .pPace => fetchSelector (.phase Phase.pPace.code) s
    | .pArm => fetchSelector (.phase Phase.pArm.code) s
    | .pRead => fetchSelector (.phase Phase.pRead.code) s
    | .pDecode => fetchSelector (.phase Phase.pDecode.code) s
    | .pPublish => fetchSelector (.phase Phase.pPublish.code) s

/-- The table with `word` at index `n`: entries before it are kept, and entries of 0 stand where the table was shorter. -/
def tableWith (n : Nat) (word : Entry) (table : List Entry) : List Entry :=
  table.take n ++ List.replicate (n - table.length) 0#16 ++ word :: table.drop (n + 1)

/-- A selector placed where the step finds it: a command as the host's next move in `IDLE`, an entry at `STEP` of the table in
`I_WR`, a code in `PH`; the reset input is not asserted. Log 14. -/
def placeSelector (sel : Selector) (s : State) : State :=
  match sel with
  | .cmd op => setHostScript (.cmd op :: s.hostScript) (setPhase .idle (setResetIn false s))
  | .entry word => setInitTable (tableWith s.stepIx word s.initTable) (setPhase .iWr (setResetIn false s))
  | .phase code => setPhase (Phase.ofCode code) (setResetIn false s)

end Sys2Proof.Machine
end

