-- ==== Sys2Proof/Machine/Step.lean ====
section
/-! DEFINITION. One step of the machine, and placing a word of the opcode table where the step fetches. -/

namespace Sys2Proof.Machine

/-- One step: take the reset input, run the operation fetched, or wait in `IDLE` (R40, R167; log 15, log 26). -/
def step (s : State) : Host.Outcome State Fault Refusal :=
  match fetch s with
  | .wait => .next s
  | .reset t => resetInput t
  | .instr i t => exec i t
  | .undecodable e => .refused (.undecodable e)
  | .fault f => .fault f

/-- `s` with the operation of a word of the opcode table placed where `step` fetches its next operation (log 13, log 14). -/
def State.withFetchWord (s : State) (nbits w : Nat) : State :=
  match tableSelector nbits w with
  | some sel => placeSelector sel s
  | none => s

end Sys2Proof.Machine
end

