-- ==== Sys2Proof/Machine/Ports.lean ====
section
/-! DEFINITION. The bit codes of the messages and registers that leave the selectors aside (R81, R86, R88), the fields of the
transport port (R89, R199), and presenting a program (R97). No rule of an operation depends on these codes ("a model
that represents commands, states and error kinds as enumerated types loses nothing", 30_encoding.md). -/

namespace Sys2Proof.Machine

/-- The 2-bit code of `SESSION` (R88; the spec's decision D4). -/
def sessionCode : Session → BitVec 2
  | .uninitialized => 0b00#2
  | .ready => 0b01#2
  | .faulted => 0b10#2

/-- The 3-bit code of an error kind: its `status` code and its `REASON` code (R81, R88, R190 to R193). -/
def errCode : ErrKind → BitVec 3
  | .shortWrite => 1#3
  | .transportError => 2#3
  | .armFailure => 3#3
  | .readFailure => 4#3

/-- The 3-bit code of `REASON` (R88). -/
def reasonCode : Option ErrKind → BitVec 3
  | none => 0#3
  | some e => errCode e

/-- The 5-bit format `RSP`: `status` in bits 4:2, `c_pressed` in bit 1, `z_pressed` in bit 0 (R81; the spec's decision D3). -/
def responseCode : Response → BitVec 5
  | .ok => 0#3 ++ 0b00#2
  | .okButtons z c => 0#3 ++ BitVec.ofBool c ++ BitVec.ofBool z
  | .err e => errCode e ++ 0b00#2
  | .rejected => 5#3 ++ 0b00#2

/-- The bit `id` of a sink message (R86): 0 for Z, 1 for C. -/
def buttonCode : Button → BitVec 1
  | .z => 0#1
  | .c => 1#1

/-- The 3-bit format `SNK`: `kind` in bit 2, `id` in bit 1, `level` in bit 0 (R86; the spec's decision D15). -/
def sinkCode : SinkMsg → BitVec 3
  | .key id level => 0#1 ++ buttonCode id ++ BitVec.ofBool level
  | .sync => 0b100#3

/-- The length field `len` of a request (R89): 1 or 2 for a send, 6 for a receive. -/
def requestLen : BusRequest → Nat
  | .send bytes => bytes.length
  | .recv n => n

/-- The data bytes of a request (R89). -/
def requestBytes : BusRequest → List Byte
  | .send bytes => bytes
  | .recv _ => []

/-- The answer that the fields of a send's answer mean: "let the error flag win" (R89, R199; the spec's decision D25). -/
def sendAnswerOfFields (err : Bool) (count : BitVec Config.cntW) : SendAnswer :=
  if err then .err else .count count.toNat

/-- The answer that the fields of a receive's answer mean: `count` data bytes (R89, R199). -/
def recvAnswerOfFields (err : Bool) (count : BitVec Config.cntW) (bytes : List Byte) : RecvAnswer :=
  if err then .err else .data (bytes.take count.toNat)

/-- The host presents a program (R97, R234): its table and its script. A transport script accompanies it (95_test_vectors.md,
section 1). Log 14. -/
def loadProgram (lines : List TableLine) (script : List HostMove) (sends : List SendAnswer) (recvs : List RecvAnswer)
    (s : State) : State :=
  setRecvAnswers recvs (setSendAnswers sends (setHostScript script (setInitTable (assembleTable lines) s)))

end Sys2Proof.Machine
end

