-- ==== Sys2Proof/Safety.lean ====
section
/-! DEFINITION. What counts as a good state and a good run, in the words of the spec: the invariants of R37, the history of the
command in progress (R112, R136), the premises on the environment that R237 names, and the big-step summaries R171 and
R172. These are read by statements only; no step reads them. -/

namespace Sys2Proof.Safety

open Sys2Proof.Machine

/-! ### Runs -/

/-- `n` steps, stopping at the first fault or refusal. -/
def run : Nat → State → Host.Outcome State Fault Refusal
  | 0, s => .next s
  | n + 1, s =>
    match step s with
    | .next t => run n t
    | .fault f => .fault f
    | .refused r => .refused r

/-! ### The invariants of R37 -/

/-- The phases inside `POLL` (R29). -/
def inPoll : Phase → Bool
  | .pPace | .pArm | .pRead | .pDecode | .pPublish => true
  | .idle | .iWr | .iSettle => false

/-- R37 (a) to (e), and: a transaction is outstanding only in the phases that issue one, and it is that phase's (R36, R58). -/
structure Inv (s : State) : Prop where
  /-- R37 (a). -/
  reasonNone : s.reason = none ↔ s.session ≠ .faulted
  /-- R37 (b). -/
  initPhase : s.ph = .iWr ∨ s.ph = .iSettle → s.session = .uninitialized ∧ s.stepIx < s.initTable.length
  /-- R37 (c). -/
  pollPhase : inPoll s.ph = true → s.session = .ready
  /-- R37 (d). -/
  faultedIdle : s.session = .faulted → s.ph = .idle
  /-- R37 (e). -/
  stepLe : s.stepIx ≤ s.initTable.length
  /-- The outstanding transaction is the current phase's. -/
  outstanding : ∀ r, s.busReq = some r →
    (s.ph = .iWr ∧ r = .send [s.txbuf[0], s.txbuf[1]]) ∨ (s.ph = .pArm ∧ r = .send [s.txbuf[0]]) ∨
      (s.ph = .pRead ∧ r = .recv 6)

/-! ### Events -/

/-- A `CMD` event. -/
def isCmd : Event → Bool
  | .cmd _ => true
  | .reset | .tx _ _ | .rx _ _ | .delay _ | .sink _ | .rsp _ => false

/-- A `RSP` event. -/
def isRsp : Event → Bool
  | .rsp _ => true
  | .reset | .cmd _ | .tx _ _ | .rx _ _ | .delay _ | .sink _ => false

/-- A bus transaction, a delay or a sink message: what R202 says a Faulted session never issues. -/
def isActivity : Event → Bool
  | .tx _ _ | .rx _ _ | .delay _ | .sink _ => true
  | .reset | .cmd _ | .rsp _ => false

/-- "Every accepted `CMD` is answered by exactly one `RSP`, and nothing else is sent on this port" (R21): as many responses as commands,
less the one command in progress. -/
def ResponsesBalance (s : State) : Prop :=
  s.trace.countP isRsp + (if s.ph = .idle then 0 else 1) = s.trace.countP isCmd

/-- What an event may be with the table `table`: a write is the arming byte or one entry of the table, register first (R55, R63); a read
asks for 6 bytes (R58); a delay is the settle delay or a pacing delay within its bounds (R207). -/
def eventOk (table : List Entry) : Event → Prop
  | .tx bytes _ => bytes = [0x00#8] ∨ ∃ w ∈ table, bytes = [w.extractLsb' 8 8, w.extractLsb' 0 8]
  | .rx n _ => n = 6
  | .delay t => t = 1000 ∨ (10000 ≤ t ∧ t ≤ 20000)
  | .reset | .cmd _ | .sink _ | .rsp _ => True

/-- Every event so far is one the spec allows. -/
def EventsOk (s : State) : Prop := ∀ e ∈ s.trace, eventOk s.initTable e

/-! ### The history of the command in progress -/

/-- The transport accepted at least `n` bytes. -/
def accepts (n : Nat) : SendAnswer → Prop
  | .err => False
  | .count k => n ≤ k

/-- The write of one entry, register byte first, as an event (R55, R83). -/
def writeEvent (w : Entry) (a : SendAnswer) : Event := .tx [w.extractLsb' 8 8, w.extractLsb' 0 8] a

/-- The events of init steps that succeeded: for each entry a write and the settle delay (R112). -/
def stepsEvents : List Entry → List SendAnswer → List Event
  | w :: ws, a :: as => writeEvent w a :: .delay 1000 :: stepsEvents ws as
  | _, _ => []

/-- What the trace ends with while a command is in progress: inside `INIT`, the command and then the completed steps 0 to `STEP - 1` of the
table in order (R112); inside `POLL`, the command and then the pacing delay, the arming write and the read, in that order (R136), with the
report just read in `RXBUF` (R31) and its ButtonState in `BTN` (R32). -/
def History (s : State) : Prop :=
  match s.ph with
  | .idle => True
  | .iWr => ∃ before as, as.length = s.stepIx ∧ (∀ a ∈ as, accepts 2 a) ∧
      s.trace = before ++ .cmd 0#1 :: stepsEvents s.initTable as
  | .iSettle => ∃ before as a w, as.length = s.stepIx ∧ (∀ x ∈ as, accepts 2 x) ∧ accepts 2 a ∧
      s.initTable[s.stepIx]? = some w ∧
      s.trace = before ++ .cmd 0#1 :: (stepsEvents s.initTable as ++ [writeEvent w a])
  | .pPace => ∃ before, s.trace = before ++ [.cmd 1#1]
  | .pArm => ∃ before t, 10000 ≤ t ∧ t ≤ 20000 ∧ s.trace = before ++ [.cmd 1#1, .delay t]
  | .pRead => ∃ before t a, 10000 ≤ t ∧ t ≤ 20000 ∧ accepts 1 a ∧
      s.trace = before ++ [.cmd 1#1, .delay t, .tx [0x00#8] a]
  | .pDecode => ∃ before t a, 10000 ≤ t ∧ t ≤ 20000 ∧ accepts 1 a ∧
      s.trace = before ++ [.cmd 1#1, .delay t, .tx [0x00#8] a, .rx 6 (.data s.rxbuf.toList)]
  | .pPublish => ∃ before t a, 10000 ≤ t ∧ t ≤ 20000 ∧ accepts 1 a ∧
      s.btn = ⟨!s.rxbuf[5].getLsbD 0, !s.rxbuf[5].getLsbD 1⟩ ∧
      s.trace = before ++ [.cmd 1#1, .delay t, .tx [0x00#8] a, .rx 6 (.data s.rxbuf.toList)]

/-! ### Premises on the environment (R237). `OneCommand` and `TableStable` hold of every step by construction (log 1, log 4), and
so does `SinkAccepts` (log 21); `BusExclusive` speaks of other users of the bus, which one State cannot show (log 24). -/

/-- `ResetIdle` (R237 d): the reset input is asserted only when no command is in progress. -/
def ResetIdle (s : State) : Prop := s.resetIn = true → s.ph = .idle

/-- `TransportAnswers` (R237 e) for the next step: the transaction the phase issues has an answer. -/
def TransportAnswers (s : State) : Prop :=
  (s.ph = .iWr ∨ s.ph = .pArm → s.sendAnswers ≠ []) ∧ (s.ph = .pRead → s.recvAnswers ≠ [])

/-- `TransportBounded` (R54, R237 f) of one event: no count exceeds the length asked for. -/
def countBounded : Event → Prop
  | .tx bytes (.count k) => k ≤ bytes.length
  | .rx n (.data d) => d.length ≤ n
  | .tx _ .err | .rx _ .err | .reset | .cmd _ | .delay _ | .sink _ | .rsp _ => True

/-- `TransportBounded` (R54) of a run: it holds of every event so far. -/
def TransportBounded (s : State) : Prop := ∀ e ∈ s.trace, countBounded e

/-- The table fits a realisation's store, `N <= N_MAX` (R6, D8); no rule depends on it. -/
def FitsStore (s : State) : Prop := s.initTable.length ≤ Config.nMax

/-! ### The big-step summaries -/

/-- The failure an answer to an init write means (R110). -/
def initFailure : SendAnswer → Option ErrKind
  | .err => some .transportError
  | .count 0 => some .shortWrite
  | .count 1 => some .shortWrite
  | .count (_ + 2) => none

/-- R171: the events of an `INIT` with this table and these answers, the failure that ended it if any, and the number of steps that
completed (the index of the failed step, or N). Where the answers run out the transport has not answered. -/
def bigInit : List Entry → List SendAnswer → List Event × Option ErrKind × Nat
  | [], _ => ([], none, 0)
  | _ :: _, [] => ([], none, 0)
  | w :: ws, a :: as =>
    match initFailure a with
    | some reason => ([writeEvent w a], some reason, 0)
    | none =>
      let rest := bigInit ws as
      (writeEvent w a :: .delay 1000 :: rest.1, rest.2.1, rest.2.2 + 1)

/-- The answers suffice for an `INIT` with this table: the transport answers each write that the command issues, and the command issues
none after one that failed (R113). -/
def initAnswered : List Entry → List SendAnswer → Bool
  | [], _ => true
  | _ :: _, [] => false
  | _ :: ws, a :: as =>
    match initFailure a with
    | some _ => true
    | none => initAnswered ws as

/-- The response of an `INIT` (R171). -/
def initResponse : Option ErrKind → Response
  | none => .ok
  | some reason => .err reason

/-- The session after a command that ended so (R171, R172). -/
def sessionAfter : Option ErrKind → Session
  | none => .ready
  | some _ => .faulted

/-- R172: the failure that ends a `POLL` with these answers to its write and its read, if any. -/
def pollFailure : SendAnswer → RecvAnswer → Option ErrKind
  | .err, _ => some .armFailure
  | .count 0, _ => some .armFailure
  | .count (_ + 1), .err => some .readFailure
  | .count (_ + 1), .data d => if d.length = 6 then none else some .readFailure

/-- R172: the events of a `POLL` after its pacing delay. -/
def pollEvents (a : SendAnswer) (b : RecvAnswer) : List Event :=
  match pollFailure a b, b with
  | some .armFailure, _ => [.tx [0x00#8] a, .rsp (.err .armFailure)]
  | some reason, b => [.tx [0x00#8] a, .rx 6 b, .rsp (.err reason)]
  | none, .data [b0, b1, b2, b3, b4, b5] =>
    [.tx [0x00#8] a, .rx 6 (.data [b0, b1, b2, b3, b4, b5]), .sink (.key .z (!b5.getLsbD 0)),
      .sink (.key .c (!b5.getLsbD 1)), .sink .sync, .rsp (.okButtons (!b5.getLsbD 0) (!b5.getLsbD 1))]
  | none, _ => []

end Sys2Proof.Safety
end

