-- ==== Sys2Proof/Certificates/Slice0/Obligations.lean ====
section
/-! DEFINITION. The statements for the provers. Each docstring names the rule of spec/ it formalises; "derived" ones name the
decision of the spec or the log entry they rest on. Numbers and masks are the spec's own literals, not the model's names for
them. -/

open Sys2Proof Sys2Proof.Machine Sys2Proof.Safety

/-! ### Encodings -/

/-- Words written out from R80, R82 and R87 decode to what they stand for; `PH` codes 0b000 and 0b001 alone select nothing. (Codes: the
spec's decisions D2, D5, D6; the byte form of a word is the model's, log 13.) -/
def Obligations.HandWrittenWordsDecode : Prop :=
  decodeTableWord 8 0b0 = some .init ∧ decodeTableWord 8 0b1 = some .poll ∧ decodeTableWord 8 0b010 = some .settle ∧
    decodeTableWord 8 0b011 = some .pace ∧ decodeTableWord 8 0b100 = some .arm ∧ decodeTableWord 8 0b101 = some .rdrep ∧
    decodeTableWord 8 0b110 = some .decode ∧ decodeTableWord 8 0b111 = some .publish ∧
    decodeTableWord 16 0xF055 = some (.wr 0xF0#8 0x55#8) ∧ decodeTableWord 16 0x0180 = some (.wr 0x01#8 0x80#8) ∧
    decode (.phase 0b000#3) = .error .idlePhase ∧ decode (.phase 0b001#3) = .error .entryNeeded

/-- R98: the two pseudo-instructions assemble to the tables of R82, and an entry line to its word (the spec's decisions D6, D23). -/
def Obligations.TableLinesAssemble : Prop :=
  assembleTable [.tableA] = [0xF055#16, 0xFB00#16] ∧ assembleTable [.tableB] = [0x52F0#16, 0x5255#16] ∧
    ∀ reg val : Byte, assembleTable [.wr reg val] = [reg ++ val]

/-- Decoding an encoded operation gives it back, with every operand at every value, from its selector, from its bytes and from its word
as the opcode table numbers its bits. -/
def Obligations.DecodeOfEncode : Prop :=
  ∀ i : Instr, i.wf = true →
    decode (encode i) = .ok i ∧ decodeBytes (encodeBytes i) = .ok i ∧ decodeTableWord (tableBits i) (tableWord i) = some i

/-- R82, R91: each operation has one selector: whatever decodes to it is its encoding. So no two entry words, and no two codes, share
an operation, and no bit of an entry is dropped. -/
def Obligations.EncodeOfDecode : Prop :=
  ∀ (sel : Selector) (i : Instr), decode sel = .ok i → encode i = sel

/-- R81, R86, R88: the codes of responses, sink messages, session states and reasons (the spec's decisions D3, D4, D15). -/
def Obligations.MessageCodes : Prop :=
  responseCode .ok = 0b00000#5 ∧ responseCode (.err .shortWrite) = 0b00100#5 ∧
    responseCode (.err .transportError) = 0b01000#5 ∧ responseCode (.err .armFailure) = 0b01100#5 ∧
    responseCode (.err .readFailure) = 0b10000#5 ∧ responseCode .rejected = 0b10100#5 ∧
    responseCode (.okButtons true true) = 0b00011#5 ∧ responseCode (.okButtons false true) = 0b00010#5 ∧
    responseCode (.okButtons true false) = 0b00001#5 ∧ responseCode (.okButtons false false) = 0b00000#5 ∧
    sinkCode (.key .z false) = 0b000#3 ∧ sinkCode (.key .z true) = 0b001#3 ∧ sinkCode (.key .c false) = 0b010#3 ∧
    sinkCode (.key .c true) = 0b011#3 ∧ sinkCode .sync = 0b100#3 ∧
    sessionCode .uninitialized = 0b00#2 ∧ sessionCode .ready = 0b01#2 ∧ sessionCode .faulted = 0b10#2 ∧
    reasonCode none = 0#3 ∧ reasonCode (some .shortWrite) = 1#3 ∧ reasonCode (some .transportError) = 2#3 ∧
    reasonCode (some .armFailure) = 3#3 ∧ reasonCode (some .readFailure) = 4#3

/-- R199: where a transport presents both an error flag and a count, the error flag wins (the spec's decision D25). -/
def Obligations.ErrorFlagWins : Prop :=
  ∀ (count : BitVec Config.cntW) (bytes : List Byte),
    sendAnswerOfFields true count = .err ∧ recvAnswerOfFields true count bytes = .err ∧
      sendAnswerOfFields false count = .count count.toNat

/-! ### Reset, idle and the step -/

/-- R231: what reset leaves, in every instance, and that the NSC then waits for a command. Nothing is said of the buffers, which R40 leaves
unspecified. (The values of `REASON`, `STEP`, `PH`: the spec's decision D16. The model's own: the empty trace, log 8; no move and
no reset input at reset, log 1; the wait as a step that changes nothing, log 15; a response outstanding read off `PH`, and the
outstanding transaction as a register, log 29; one reset state per source of free values, log 31.) -/
def Obligations.ResetConstructsSession : Prop :=
  State.reset = State.resetOn 0 ∧
  ∀ source : Nat, let r := State.resetOn source
    r.session = .uninitialized ∧ r.reason = none ∧ r.stepIx = 0 ∧ r.ph = .idle ∧ commandInProgress r = false ∧
      r.busReq = none ∧ r.trace = [] ∧ step r = .next r

/-- R168 as a transition, from `IDLE` in whatever session state, by the reset input or by the host's next move: the four values, no
transaction outstanding, no message sent. Of the environment's inputs it takes its own request alone: the asserted input is cleared
and the script kept, or, with the input not asserted, the move is consumed; the table and the answers stay. (The spec's decision
D16. The model's own: the input is cleared by the step that takes it and comes before the script, log 1; the `RESET` event in
the trace, log 8; the source of free values stays the instance's, log 31.) -/
def Obligations.ResetFromIdle : Prop :=
  ∀ s : State, s.ph = .idle → (s.resetIn = true ∨ ∃ rest, s.hostScript = .reset :: rest) →
    ∃ t, step s = .next t ∧ t.session = .uninitialized ∧ t.reason = none ∧ t.stepIx = 0 ∧ t.ph = .idle ∧
      t.busReq = none ∧ t.resetIn = false ∧ t.trace = s.trace ++ [.reset] ∧ t.initTable = s.initTable ∧
      t.sendAnswers = s.sendAnswers ∧ t.recvAnswers = s.recvAnswers ∧ t.freeSource = s.freeSource ∧
      (if s.resetIn then t.hostScript = s.hostScript else .reset :: t.hostScript = s.hostScript)

/-- R233: a reset while a command is in progress has no step; the model refuses it (the spec's decision D16; log 9). -/
def Obligations.ResetDuringCommandRefused : Prop :=
  ∀ s : State, s.resetIn = true → s.ph ≠ .idle → step s = .refused .resetWhileBusy

/-- R40, R167, R170: in `IDLE`, with no command from the host, the NSC waits, and starts nothing by itself (the model's form of the wait is a
step that changes nothing, log 15). -/
def Obligations.IdleWaitsForTheHost : Prop :=
  ∀ s : State, s.resetIn = false → s.ph = .idle → s.hostScript = [] → step s = .next s

/-- A step runs the decoded operation: the host's next command in `IDLE`, whose arrival is an event; the entry `STEP` names in `I_WR` (R70,
R110); the code of `PH` in every other phase (R87).
(`PH` and `STEP` are the spec's decision D5; the arrival as an event: log 8.) -/
def Obligations.StepRunsDecoded : Prop :=
  ∀ (s : State) (i : Instr), s.resetIn = false →
    (∀ op rest, s.ph = .idle → s.hostScript = .cmd op :: rest → decode (.cmd op) = .ok i →
      step s = exec i { s with hostScript := rest, trace := s.trace ++ [.cmd op] }) ∧
    (∀ w, s.ph = .iWr → s.initTable[s.stepIx]? = some w → decode (.entry w) = .ok i → step s = exec i s) ∧
    (s.ph ≠ .idle → s.ph ≠ .iWr → decode (.phase s.ph.code) = .ok i → step s = exec i s)

/-- A word placed where the step fetches is the operation that the next step runs, from every state: a command after its arrival, any
other operation on the state as it was placed (log 14). -/
def Obligations.PlacedWordRuns : Prop :=
  ∀ (s : State) (nbits w : Nat) (i : Instr), decodeTableWord nbits w = some i →
    (i = .init ∨ i = .poll → ∃ op, decode (.cmd op) = .ok i ∧
      step (s.withFetchWord nbits w) = exec i { s with ph := .idle, resetIn := false, trace := s.trace ++ [.cmd op] }) ∧
    (i ≠ .init → i ≠ .poll → step (s.withFetchWord nbits w) = exec i (s.withFetchWord nbits w))

/-- R50: in `I_WR` with `STEP` outside the table there is no entry to write; the model stops (log 12). -/
def Obligations.AbsentTableEntryFaults : Prop :=
  ∀ s : State, s.resetIn = false → s.ph = .iWr → s.initTable.length ≤ s.stepIx → step s = .fault .tableEntryAbsent

/-- R110, R111, R130 to R132, R150, R162 (preconditions), R167: a micro-operation outside its phase, and a command while one is in progress,
have no meaning; the model refuses each by name (log 10, log 11). -/
def Obligations.OperationsNeedTheirPhase : Prop :=
  ∀ s : State,
    (s.ph ≠ .idle → exec .init s = .refused .commandWhileBusy ∧ exec .poll s = .refused .commandWhileBusy) ∧
    (s.ph ≠ .iWr → ∀ reg val, exec (.wr reg val) s = .refused (.notInPhase .iWr)) ∧
    (s.ph ≠ .iSettle → exec .settle s = .refused (.notInPhase .iSettle)) ∧
    (s.ph ≠ .pPace → exec .pace s = .refused (.notInPhase .pPace)) ∧
    (s.ph ≠ .pArm → exec .arm s = .refused (.notInPhase .pArm)) ∧
    (s.ph ≠ .pRead → exec .rdrep s = .refused (.notInPhase .pRead)) ∧
    (s.ph ≠ .pDecode → exec .decode s = .refused (.notInPhase .pDecode)) ∧
    (s.ph ≠ .pPublish → exec .publish s = .refused (.notInPhase .pPublish))

/-! ### Results of the operations, as equations of the whole next state -/

/-- `INIT` (R160, R164, R114): rejected unless `Uninitialized`; `Ready` at once with the empty table; else `STEP` 0 and the first write next.
Everything not named is unchanged. (Rejection of `INIT`: the spec's decision D13; the empty table: D8.) -/
def Obligations.InitCommandResult : Prop :=
  ∀ s : State, s.ph = .idle →
    (s.session = .uninitialized → s.initTable = [] →
      exec .init s = .next { s with stepIx := 0, session := .ready, trace := s.trace ++ [.rsp .ok] }) ∧
    (s.session = .uninitialized → s.initTable ≠ [] → exec .init s = .next { s with stepIx := 0, ph := .iWr }) ∧
    (s.session ≠ .uninitialized → exec .init s = .next { s with trace := s.trace ++ [.rsp .rejected] })

/-- `POLL` (R161, R163): the pacing delay next in `Ready`; rejected otherwise. (Rejection: the spec's decision D13.) -/
def Obligations.PollCommandResult : Prop :=
  ∀ s : State, s.ph = .idle →
    (s.session = .ready → exec .poll s = .next { s with ph := .pPace }) ∧
    (s.session ≠ .ready → exec .poll s = .next { s with trace := s.trace ++ [.rsp .rejected] })

/-- R165: `POLL` in `Faulted` is answered `Rejected` and nothing else happens: no transaction, no delay, no sink message, and `REASON` keeps
the reason of the original fault. -/
def Obligations.PollInFaultedRejected : Prop :=
  ∀ s : State, s.ph = .idle → s.session = .faulted →
    exec .poll s = .next { s with trace := s.trace ++ [.rsp .rejected] }

/-- R110: `WR` writes both bytes of `TXBUF`, sends them in one transaction, register byte first, and goes on by the answer: `TransportError`
on `Err`, `ShortWrite` on `Count(0)` or `Count(1)`, else the settle delay next. Its operands are the entry `STEP` names. Everything not
named is unchanged, `STEP` among it.
(Register byte first: the spec's decision D7, log 17.) -/
def Obligations.WrResult : Prop :=
  ∀ s : State, s.ph = .iWr →
    (∀ (reg val : Byte) (rest : List SendAnswer),
      (s.sendAnswers = .err :: rest →
        exec (.wr reg val) s = .next { s with
          txbuf := #v[reg, val], sendAnswers := rest, busReq := none, session := .faulted,
          reason := some .transportError, ph := .idle,
          trace := s.trace ++ [.tx [reg, val] .err, .rsp (.err .transportError)] }) ∧
      (∀ k, k < 2 → s.sendAnswers = .count k :: rest →
        exec (.wr reg val) s = .next { s with
          txbuf := #v[reg, val], sendAnswers := rest, busReq := none, session := .faulted,
          reason := some .shortWrite, ph := .idle,
          trace := s.trace ++ [.tx [reg, val] (.count k), .rsp (.err .shortWrite)] }) ∧
      (∀ k, 2 ≤ k → s.sendAnswers = .count k :: rest →
        exec (.wr reg val) s = .next { s with
          txbuf := #v[reg, val], sendAnswers := rest, busReq := none, ph := .iSettle,
          trace := s.trace ++ [.tx [reg, val] (.count k)] })) ∧
    (∀ w, s.resetIn = false → s.initTable[s.stepIx]? = some w →
      step s = exec (.wr (w.extractLsb' 8 8) (w.extractLsb' 0 8)) s)

/-- R111: `SETTLE` delays 1000 µs and advances `STEP` by 1; at N the session is `Ready` and the answer `Ok`; else the next write. The delay
follows the last write too. (The spec's decision D9; log 18.) -/
def Obligations.SettleResult : Prop :=
  ∀ s : State, s.ph = .iSettle →
    (s.stepIx + 1 = s.initTable.length →
      exec .settle s = .next { s with
        stepIx := s.stepIx + 1, session := .ready, ph := .idle, trace := s.trace ++ [.delay 1000, .rsp .ok] }) ∧
    (s.stepIx + 1 ≠ s.initTable.length →
      exec .settle s = .next { s with stepIx := s.stepIx + 1, ph := .iWr, trace := s.trace ++ [.delay 1000] })

/-- R130: `PACE` delays by a draw of 10000 to 20000 µs, both included, and the arming write is next. The draw is a free value (log 7): the
statement holds for every one. (Unit and bounds in whole microseconds: the spec's decision D10.) -/
def Obligations.PaceResult : Prop :=
  ∀ s : State, s.ph = .pPace →
    ∃ d, 10000 ≤ d ∧ d ≤ 20000 ∧
      exec .pace s = .next { s with ph := .pArm, freeIx := s.freeIx + 1, trace := s.trace ++ [.delay d] }

/-- R131: `ARM` writes `TXBUF[0]`, sends the single byte 0x00, and goes on by the answer: `ArmFailure` on `Err` or `Count(0)`, else the read
next. (`ArmFailure` for `Err`: the spec's decision D11; log 19.) -/
def Obligations.ArmResult : Prop :=
  ∀ (s : State) (rest : List SendAnswer), s.ph = .pArm →
    (∀ a, a = .err ∨ a = .count 0 → s.sendAnswers = a :: rest →
      exec .arm s = .next { s with
        txbuf := s.txbuf.set 0 0x00#8, sendAnswers := rest, busReq := none, session := .faulted,
        reason := some .armFailure, ph := .idle,
        trace := s.trace ++ [.tx [0x00#8] a, .rsp (.err .armFailure)] }) ∧
    (∀ k, 1 ≤ k → s.sendAnswers = .count k :: rest →
      exec .arm s = .next { s with
        txbuf := s.txbuf.set 0 0x00#8, sendAnswers := rest, busReq := none, ph := .pRead,
        trace := s.trace ++ [.tx [0x00#8] (.count k)] })

/-- R132: `RDREP` asks for 6 bytes; six bytes fill `RXBUF` in order and the decode is next; any other count, and `Err`, is `ReadFailure` and
`RXBUF` keeps what it held. (`ReadFailure` for `Err`: the spec's decision D11; log 19.) -/
def Obligations.RdrepResult : Prop :=
  ∀ (s : State) (rest : List RecvAnswer), s.ph = .pRead →
    (∀ b0 b1 b2 b3 b4 b5 : Byte, s.recvAnswers = .data [b0, b1, b2, b3, b4, b5] :: rest →
      exec .rdrep s = .next { s with
        rxbuf := #v[b0, b1, b2, b3, b4, b5], recvAnswers := rest, busReq := none, ph := .pDecode,
        trace := s.trace ++ [.rx 6 (.data [b0, b1, b2, b3, b4, b5])] }) ∧
    (∀ a, (a = .err ∨ ∃ d, d.length ≠ 6 ∧ a = .data d) → s.recvAnswers = a :: rest →
      exec .rdrep s = .next { s with
        recvAnswers := rest, busReq := none, session := .faulted, reason := some .readFailure, ph := .idle,
        trace := s.trace ++ [.rx 6 a, .rsp (.err .readFailure)] })

/-- R150: `DECODE` reads byte 5 of `RXBUF` alone; `z_pressed` is the complement of its bit 0 and `c_pressed` of its bit 1; it never fails. -/
def Obligations.DecodeResult : Prop :=
  ∀ s : State, s.ph = .pDecode →
    exec .decode s = .next { s with
      btn := ⟨s.rxbuf[5] &&& 0b01#8 == 0#8, s.rxbuf[5] &&& 0b10#8 == 0#8⟩, ph := .pPublish } ∧
    (s.rxbuf[5] &&& 0b01#8 == 0#8) = !s.rxbuf[5].getLsbD 0 ∧ (s.rxbuf[5] &&& 0b10#8 == 0#8) = !s.rxbuf[5].getLsbD 1

/-- R162: `PUBLISH` sends the level of Z, the level of C and the sync, in this order, then answers with both levels; it changes nothing else but
`PH`, and it does so whatever levels were sent before. (The order: the spec's decision D15; log 21.) -/
def Obligations.PublishResult : Prop :=
  ∀ s : State, s.ph = .pPublish →
    exec .publish s = .next { s with
      ph := .idle,
      trace := s.trace ++ [.sink (.key .z s.btn.zPressed), .sink (.key .c s.btn.cPressed), .sink .sync,
        .rsp (.okButtons s.btn.zPressed s.btn.cPressed)] }

/-- R51, R52, R59: while the transport has not answered, the transaction stays outstanding and the NSC does nothing else (the form of the wait is
the model's, log 3). -/
def Obligations.UnansweredTransactionWaits : Prop :=
  ∀ s : State,
    (s.ph = .iWr → s.sendAnswers = [] → ∀ reg val,
      exec (.wr reg val) s = .next { s with txbuf := #v[reg, val], busReq := some (.send [reg, val]) }) ∧
    (s.ph = .pArm → s.sendAnswers = [] →
      exec .arm s = .next { s with txbuf := s.txbuf.set 0 0x00#8, busReq := some (.send [0x00#8]) }) ∧
    (s.ph = .pRead → s.recvAnswers = [] → exec .rdrep s = .next { s with busReq := some (.recv 6) })

/-- R244: a transport that never answers leaves the NSC waiting for ever, whatever the number of steps: the phase stays, no event follows (so no
response), and no command is taken.
(The form of the wait is the model's, log 3.) -/
def Obligations.HangWithoutAnswer : Prop :=
  ∀ (s : State) (n : Nat), s.resetIn = false →
    (∀ w, s.ph = .iWr → s.initTable[s.stepIx]? = some w → s.sendAnswers = [] →
      run (n + 1) s = .next { s with
        txbuf := #v[w.extractLsb' 8 8, w.extractLsb' 0 8],
        busReq := some (.send [w.extractLsb' 8 8, w.extractLsb' 0 8]) }) ∧
    (s.ph = .pArm → s.sendAnswers = [] →
      run (n + 1) s = .next { s with txbuf := s.txbuf.set 0 0x00#8, busReq := some (.send [0x00#8]) }) ∧
    (s.ph = .pRead → s.recvAnswers = [] → run (n + 1) s = .next { s with busReq := some (.recv 6) })

/-! ### The decoder's function -/

/-- R153: the truth table; and bits above position 1 and all of bytes 0 to 4 have no effect. -/
def Obligations.DecoderTruthTable : Prop :=
  (∀ r : Report,
    (r[5].extractLsb' 0 2 = 0b00#2 → decodeReport r = ⟨true, true⟩) ∧
    (r[5].extractLsb' 0 2 = 0b01#2 → decodeReport r = ⟨false, true⟩) ∧
    (r[5].extractLsb' 0 2 = 0b10#2 → decodeReport r = ⟨true, false⟩) ∧
    (r[5].extractLsb' 0 2 = 0b11#2 → decodeReport r = ⟨false, false⟩)) ∧
  ∀ r r' : Report, r[5].extractLsb' 0 2 = r'[5].extractLsb' 0 2 → decodeReport r = decodeReport r'

/-- R94: any six bytes are accepted as a report; and two reports that agree in bits 1:0 of byte 5 lead through `DECODE` and `PUBLISH` to the same
levels, the same sink messages and the same response: two runs that differ only in the payload are told apart by `RXBUF` alone. -/
def Obligations.ReportPayloadIgnored : Prop :=
  (∀ (s : State) (d : List Byte) (rest : List RecvAnswer), s.ph = .pRead → s.recvAnswers = .data d :: rest → d.length = 6 →
    ∃ t, exec .rdrep s = .next t ∧ t.ph = .pDecode ∧ t.session = s.session ∧ t.reason = s.reason) ∧
  ∀ (s : State) (r : Report), s.ph = .pDecode → s.resetIn = false →
    r[5].extractLsb' 0 2 = s.rxbuf[5].extractLsb' 0 2 →
    ∃ t, run 2 s = .next t ∧ run 2 { s with rxbuf := r } = .next { t with rxbuf := r } ∧ t.ph = .idle

/-! ### Faults -/

/-- R200: the one fault-entry sequence, with everything else left as it is; and in `IDLE` with the session `Faulted`, which is where it leads,
every command is rejected, run by `exec` or taken by a step, and the session is `Faulted` in `IDLE` again, so the next command is
rejected too. (Rejection of `INIT` in `Faulted`: the spec's decision D13, log 22; a command's arrival as an event: log 8.) -/
def Obligations.FaultEntry : Prop :=
  (∀ (reason : ErrKind) (s : State),
    raiseFault reason s = { s with
      session := .faulted, reason := some reason, ph := .idle, trace := s.trace ++ [.rsp (.err reason)] }) ∧
  ∀ s : State, s.session = .faulted → s.ph = .idle →
    (∀ i, i = .init ∨ i = .poll → exec i s = .next { s with trace := s.trace ++ [.rsp .rejected] }) ∧
    ∀ op rest, s.resetIn = false → s.hostScript = .cmd op :: rest →
      ∃ t, step s = .next t ∧ t = { s with hostScript := rest, trace := s.trace ++ [.cmd op, .rsp .rejected] } ∧
        t.session = .faulted ∧ t.ph = .idle

/-- The cause table R196 (R190 to R193): a session becomes `Faulted` only by the operation and the answer that the recorded reason names; no other
operation can fail. (The reasons during a poll: the spec's decision D11.) -/
def Obligations.FaultCauses : Prop :=
  ∀ (i : Instr) (s t : State), exec i s = .next t → s.session ≠ .faulted → t.session = .faulted →
    (t.reason = some .shortWrite ∧ (∃ reg val, i = .wr reg val) ∧ ∃ k rest, k < 2 ∧ s.sendAnswers = .count k :: rest) ∨
    (t.reason = some .transportError ∧ (∃ reg val, i = .wr reg val) ∧ ∃ rest, s.sendAnswers = .err :: rest) ∨
    (t.reason = some .armFailure ∧ i = .arm ∧ ∃ rest, s.sendAnswers = .err :: rest ∨ s.sendAnswers = .count 0 :: rest) ∨
    (t.reason = some .readFailure ∧ i = .rdrep ∧
      ∃ rest, s.recvAnswers = .err :: rest ∨ ∃ d, d.length ≠ 6 ∧ s.recvAnswers = .data d :: rest)

/-- R203, R204: only `RESET` leaves `Faulted`, and until then `REASON` keeps the reason of the one fault; `RESET` restores nothing: it constructs a
new session.
(The `RESET` event in the trace is the model's, log 8.) -/
def Obligations.OnlyResetLeavesFaulted : Prop :=
  ∀ s t : State, Inv s → s.session = .faulted → step s = .next t →
    (t.session = .faulted ∧ t.reason = s.reason) ∨
    (t.trace = s.trace ++ [.reset] ∧ t.session = .uninitialized ∧ t.reason = none ∧ t.stepIx = 0 ∧ t.ph = .idle)

/-- R202, R66 (d): after a fault and until `RESET`, however many steps are taken and whatever the host asks, the session stays `Faulted` with its
reason, and no transaction, delay or sink message is issued; and the machine does take those steps.
(Rejection of `INIT`: the spec's decision D13.) -/
def Obligations.FaultedRunIsSilent : Prop :=
  ∀ (n : Nat) (s : State), Inv s → s.session = .faulted → s.resetIn = false → HostMove.reset ∉ s.hostScript →
    ∃ t es, run n s = .next t ∧ t.session = .faulted ∧ t.reason = s.reason ∧ t.ph = .idle ∧
      t.trace = s.trace ++ es ∧ ∀ e ∈ es, isActivity e = false

/-! ### Frames -/

/-- The commands (R160, R161 "State written"): `INIT` may change only `SESSION` (to `Ready`), `STEP`, `PH`, and `POLL` only `PH`, beside the response in
the trace. -/
def Obligations.CommandFrame : Prop :=
  ∀ (i : Instr) (s t : State), i = .init ∨ i = .poll → exec i s = .next t →
    t.reason = s.reason ∧ t.txbuf = s.txbuf ∧ t.rxbuf = s.rxbuf ∧ t.btn = s.btn ∧ t.busReq = s.busReq ∧
      t.initTable = s.initTable ∧ t.hostScript = s.hostScript ∧ t.resetIn = s.resetIn ∧ t.sendAnswers = s.sendAnswers ∧
      t.recvAnswers = s.recvAnswers ∧ t.freeSource = s.freeSource ∧ t.freeIx = s.freeIx ∧
      (t.session = s.session ∨ (i = .init ∧ s.session = .uninitialized ∧ t.session = .ready)) ∧
      (t.stepIx = s.stepIx ∨ (i = .init ∧ s.session = .uninitialized ∧ t.stepIx = 0)) ∧
      (t.trace = s.trace ∨ ∃ r, t.trace = s.trace ++ [.rsp r])

/-- `WR` and `SETTLE` (R110, R111 "State written"): neither changes `RXBUF`, `BTN`, the table, the host's moves, the answers to reads or the free values' source and counter;
`WR` leaves `STEP` and writes `TXBUF`, and changes `SESSION` and `REASON` only by a fault; `SETTLE` leaves `REASON`, `TXBUF` and the transport alone and advances
`STEP` by 1. -/
def Obligations.InitSequencerFrame : Prop :=
  ∀ (i : Instr) (s t : State), (∃ reg val, i = .wr reg val) ∨ i = .settle → exec i s = .next t →
    t.rxbuf = s.rxbuf ∧ t.btn = s.btn ∧ t.initTable = s.initTable ∧ t.hostScript = s.hostScript ∧ t.resetIn = s.resetIn ∧
      t.recvAnswers = s.recvAnswers ∧ t.freeSource = s.freeSource ∧ t.freeIx = s.freeIx ∧ (∃ es, t.trace = s.trace ++ es) ∧
      (∀ reg val, i = .wr reg val → t.stepIx = s.stepIx ∧ t.txbuf = #v[reg, val] ∧
        ((t.session = s.session ∧ t.reason = s.reason) ∨ (t.session = .faulted ∧ t.reason ≠ none ∧ t.ph = .idle))) ∧
      (i = .settle → t.stepIx = s.stepIx + 1 ∧ t.reason = s.reason ∧ t.txbuf = s.txbuf ∧ t.busReq = s.busReq ∧
        t.sendAnswers = s.sendAnswers ∧ (t.session = s.session ∨ t.session = .ready))

/-- `PACE`, `ARM` and `RDREP` (R130 to R132 "State written"): none changes `STEP`, `BTN`, `TXBUF[1]`, the table or the host's moves; `RXBUF` changes only by a `RDREP`
that leads to the decode; `TXBUF[0]` only by `ARM`; `SESSION` and `REASON` only by a fault. -/
def Obligations.PollCycleFrame : Prop :=
  ∀ (i : Instr) (s t : State), i = .pace ∨ i = .arm ∨ i = .rdrep → exec i s = .next t →
    t.stepIx = s.stepIx ∧ t.btn = s.btn ∧ t.txbuf[1] = s.txbuf[1] ∧ t.initTable = s.initTable ∧
      t.hostScript = s.hostScript ∧ t.resetIn = s.resetIn ∧ (∃ es, t.trace = s.trace ++ es) ∧
      (t.txbuf = s.txbuf ∨ (i = .arm ∧ t.txbuf = s.txbuf.set 0 0x00#8)) ∧
      (t.rxbuf = s.rxbuf ∨ (i = .rdrep ∧ t.ph = .pDecode)) ∧
      t.freeSource = s.freeSource ∧ (t.freeIx = s.freeIx ∨ i = .pace) ∧ (t.sendAnswers = s.sendAnswers ∨ i = .arm) ∧
      (t.recvAnswers = s.recvAnswers ∨ i = .rdrep) ∧ (t.busReq = s.busReq ∨ i = .arm ∨ i = .rdrep) ∧
      ((t.session = s.session ∧ t.reason = s.reason) ∨
        (i ≠ .pace ∧ t.session = .faulted ∧ t.reason ≠ none ∧ t.ph = .idle))

/-- `DECODE` and `PUBLISH` (R150, R162 "State written"): `DECODE` writes `BTN` and `PH` and sends nothing; `PUBLISH` writes `PH` alone beside its messages. -/
def Obligations.DecodePublishFrame : Prop :=
  ∀ (i : Instr) (s t : State), i = .decode ∨ i = .publish → exec i s = .next t →
    t.session = s.session ∧ t.reason = s.reason ∧ t.stepIx = s.stepIx ∧ t.txbuf = s.txbuf ∧ t.rxbuf = s.rxbuf ∧
      t.busReq = s.busReq ∧ t.initTable = s.initTable ∧ t.hostScript = s.hostScript ∧ t.resetIn = s.resetIn ∧
      t.sendAnswers = s.sendAnswers ∧ t.recvAnswers = s.recvAnswers ∧ t.freeSource = s.freeSource ∧ t.freeIx = s.freeIx ∧
      (i = .decode → t.trace = s.trace) ∧ (i = .publish → t.btn = s.btn ∧ ∃ es, t.trace = s.trace ++ es)

/-- R25, R70: no step writes the init table.
(The table as plain data of the state is the model's form of the host's input: the spec's decision D21, log 4.) -/
def Obligations.TableNeverWritten : Prop :=
  ∀ s t : State, step s = .next t → t.initTable = s.initTable

/-- R65: the events form one sequence that only grows; the environment's inputs are only consumed, each from its front.
(The trace and the inputs as plain data of the state: log 1, log 8.) -/
def Obligations.TraceOnlyGrows : Prop :=
  ∀ s t : State, step s = .next t →
    (∃ es, t.trace = s.trace ++ es) ∧ (∃ used, s.hostScript = used ++ t.hostScript) ∧
      (∃ used, s.sendAnswers = used ++ t.sendAnswers) ∧ ∃ used, s.recvAnswers = used ++ t.recvAnswers

/-! ### Whole-machine rules -/

/-- R26: `SESSION` is written only by `RESET`, by the successful end of `INIT`, and by fault entry.
(The event that tells a reset is the model's, log 8; the delay after the last write: the spec's decision D9; the empty table: D8.) -/
def Obligations.SessionWriters : Prop :=
  ∀ s t : State, step s = .next t →
    t.session = s.session ∨
    (t.session = .uninitialized ∧ t.trace = s.trace ++ [.reset]) ∨
    (t.session = .ready ∧ ((s.ph = .iSettle ∧ t.trace = s.trace ++ [.delay 1000, .rsp .ok]) ∨
      (s.ph = .idle ∧ s.initTable = [] ∧ t.trace = s.trace ++ [.cmd 0#1, .rsp .ok]))) ∨
    (t.session = .faulted ∧ (s.ph = .iWr ∨ s.ph = .pArm ∨ s.ph = .pRead) ∧
      ∃ e a, t.reason = some e ∧ t.trace = s.trace ++ [a, .rsp (.err e)])

/-- R27: `REASON` is written only by `RESET`, to `None`, and by fault entry, to the reason it answers with.
(The event that tells a reset is the model's, log 8.) -/
def Obligations.ReasonWriters : Prop :=
  ∀ s t : State, step s = .next t →
    t.reason = s.reason ∨ (t.reason = none ∧ t.trace = s.trace ++ [.reset]) ∨
    ∃ e a, t.reason = some e ∧ t.session = .faulted ∧ t.trace = s.trace ++ [a, .rsp (.err e)]

/-- R28: what each step does to `STEP`, in every case: a settle delay advances it by exactly 1; a reset, and an `INIT` that is accepted, set it to 0;
every other step, a rejected `INIT` among them, leaves it. (The register is the spec's decision D5; the rejection of `INIT`: D13; a
reset sets it to 0: D16; the reset input before the script: log 1; the reset and the command as events: log 8.) -/
def Obligations.StepWriters : Prop :=
  ∀ s t : State, step s = .next t →
    (s.ph = .iSettle → t.stepIx = s.stepIx + 1 ∧ ∃ es, t.trace = s.trace ++ .delay 1000 :: es) ∧
    (s.ph = .idle → s.resetIn = true ∨ s.hostScript.head? = some .reset → t.stepIx = 0 ∧ t.trace = s.trace ++ [.reset]) ∧
    (s.ph = .idle → s.resetIn = false → s.hostScript.head? = some (.cmd 0#1) → s.session = .uninitialized →
      t.stepIx = 0 ∧ ∃ es, t.trace = s.trace ++ .cmd 0#1 :: es) ∧
    (s.ph ≠ .iSettle → s.ph ≠ .idle → t.stepIx = s.stepIx) ∧
    (s.ph = .idle → s.resetIn = false → s.hostScript.head? ≠ some .reset →
      s.hostScript.head? ≠ some (.cmd 0#1) ∨ s.session ≠ .uninitialized → t.stepIx = s.stepIx)

/-- R31: `RXBUF` is written only by `RDREP`, and only when the transport returned exactly 6 bytes, which it then holds in the order they arrived. (A reset
leaves it unspecified, R40.) -/
def Obligations.RxbufWriters : Prop :=
  ∀ s t : State, step s = .next t →
    t.rxbuf = s.rxbuf ∨ t.trace = s.trace ++ [.reset] ∨
    (s.ph = .pRead ∧ t.ph = .pDecode ∧ t.rxbuf.toList.length = 6 ∧
      ∃ rest, s.recvAnswers = .data t.rxbuf.toList :: rest ∧ t.trace = s.trace ++ [.rx 6 (.data t.rxbuf.toList)])

/-- R240, R112: a session becomes `Ready` only by a complete `INIT`: the trace ends with the command, the writes of all N entries in table order, each accepted
in full and followed by the settle delay, and the answer `Ok`.
(Register byte first: the spec's decision D7; the delay after the last write: D9; the empty table: D8.) -/
def Obligations.ReadyOnlyByCompleteInit : Prop :=
  ∀ s t : State, Inv s → History s → step s = .next t → s.session ≠ .ready → t.session = .ready →
    ∃ before as, as.length = t.initTable.length ∧ (∀ a ∈ as, accepts 2 a) ∧
      t.trace = before ++ .cmd 0#1 :: (stepsEvents t.initTable as ++ [.rsp .ok])

/-- R31, R38, R40: `DECODE` never reads a report that was not read in the same poll: in every state with its history, the trace ends with the read whose bytes
`RXBUF` holds, and the levels computed are those of its byte 5. So no reset value of `RXBUF` is ever read (log 5). -/
def Obligations.DecodeReadsFreshReport : Prop :=
  ∀ s : State, History s → s.ph = .pDecode → s.resetIn = false →
    ∃ before d t, s.trace = before ++ [.rx 6 (.data d)] ∧ s.rxbuf.toList = d ∧ step s = .next t ∧ t.trace = s.trace ∧
      t.btn = ⟨!s.rxbuf[5].getLsbD 0, !s.rxbuf[5].getLsbD 1⟩

/-- R54: under the premise `TransportBounded` an init write that succeeded was accepted by exactly 2 bytes and an arming write by exactly 1 (the spec's
decision D12). -/
def Obligations.BoundedTransportGivesExactCounts : Prop :=
  ∀ (s t : State) (k : Nat) (rest : List SendAnswer), s.sendAnswers = .count k :: rest → TransportBounded t →
    (∀ reg val, exec (.wr reg val) s = .next t → t.ph = .iSettle → k = 2) ∧
    (exec .arm s = .next t → t.ph = .pRead → k = 1)

/-- R248, R237 (e): while a command is in progress and the transport answers, each step moves the command to another phase and adds an event, or is the
decode, which only moves the phase.
(The model's form of progress: no source gives a time, log 25, log 26.) -/
def Obligations.CommandAdvances : Prop :=
  ∀ s : State, Inv s → s.resetIn = false → s.ph ≠ .idle → TransportAnswers s →
    ∃ t, step s = .next t ∧ t.ph ≠ s.ph ∧ (s.ph = .pDecode ∨ ∃ e es, t.trace = s.trace ++ e :: es)

/-! ### Invariants -/

/-- R37 holds at reset, in every instance, with the balance of responses, the allowed events and the history. (R37 is the spec's own inference;
the empty table and the empty trace at reset: log 4, log 8; one reset state per source of free values: log 31.) -/
def Obligations.InvariantsAtReset : Prop :=
  Inv State.reset ∧ ∀ source : Nat, let r := State.resetOn source
    Inv r ∧ ResponsesBalance r ∧ EventsOk r ∧ History r

/-- R37 (a) to (e): every step keeps the invariants, from every state that meets them, not only from reachable ones.
(R37 is the spec's own inference; `STEP` and `PH` are its decision D5; the clause on the outstanding transaction is the model's, log 29.) -/
def Obligations.InvKept : Prop :=
  ∀ s t : State, Inv s → step s = .next t → Inv t

/-- R21: every step keeps the balance "every accepted `CMD` is answered by exactly one `RSP`, and nothing else is sent on this port".
(The trace is the model's form of the ports' history, log 8.) -/
def Obligations.ResponsesBalanceKept : Prop :=
  ∀ s t : State, ResponsesBalance s → step s = .next t → ResponsesBalance t

/-- R55, R58, R63, R207: every step keeps that each write is the arming byte or one entry of the table, each read asks for 6 bytes, and each delay is the
settle delay or a pacing delay within its bounds.
(Register byte first: the spec's decision D7; bounds in whole microseconds: D10.) -/
def Obligations.EventsOkKept : Prop :=
  ∀ s t : State, EventsOk s → step s = .next t → EventsOk t

/-- R112, R135, R136: every step keeps the history of the command in progress: the completed writes of an `INIT` in table order, the pacing delay, arming write
and read of a `POLL` in order, the report in `RXBUF` and its levels in `BTN`.
(Register byte first: the spec's decision D7; bounds in whole microseconds: D10.) -/
def Obligations.HistoryKept : Prop :=
  ∀ s t : State, History s → step s = .next t → History t

/-- From every state that meets the invariants, with the reset input asserted in `IDLE` only (premise `ResetIdle`, R237 d), the machine takes a step, never
stopping by a fault or a refusal, and keeps both.
(The stops excluded are the model's own, log 9 to log 12.) -/
def Obligations.GoodStatesNeverStop : Prop :=
  ∀ s : State, Inv s → ResetIdle s → ∃ t, step s = .next t ∧ Inv t ∧ ResetIdle t

/-! ### The big-step summaries -/

/-- R171: an `INIT` from `Uninitialized`, run step by step, gives the events, the response, the session, the reason and `STEP` of the big-step summary,
for every table and every list of answers in which each write the command issues has an answer: one for each entry, or fewer that end
in a failure. One answer is used per write, and nothing else of the environment. (Decisions of the spec that the summary rests on: D7,
D8, D9; two answer lists: log 2.) -/
def Obligations.InitRefinesBigStep : Prop :=
  ∀ (s : State) (rest : List HostMove), Inv s → s.resetIn = false → s.ph = .idle → s.session = .uninitialized →
    s.hostScript = .cmd 0#1 :: rest → initAnswered s.initTable s.sendAnswers = true →
    let big := bigInit s.initTable s.sendAnswers
    ∃ n t, run n s = .next t ∧ t.ph = .idle ∧
      t.trace = s.trace ++ .cmd 0#1 :: (big.1 ++ [.rsp (initResponse big.2.1)]) ∧
      t.session = sessionAfter big.2.1 ∧ t.reason = big.2.1 ∧ t.stepIx = big.2.2 ∧ t.hostScript = rest ∧
      t.sendAnswers = s.sendAnswers.drop (big.2.2 + if big.2.1 = none then 0 else 1) ∧
      t.recvAnswers = s.recvAnswers ∧ t.rxbuf = s.rxbuf ∧ t.btn = s.btn ∧ t.initTable = s.initTable

/-- R172, R136: a `POLL` from `Ready`, run step by step, gives the events, the response, the session and the reason of the big-step summary, for every draw. Where the
arming write fails no read is asked for, and none needs an answer; where it is accepted, for every answer to the read. (Decisions of
the spec that the summary rests on: D10, D11, D15; two answer lists: log 2.) -/
def Obligations.PollRefinesBigStep : Prop :=
  ∀ (s : State) (rest : List HostMove) (a : SendAnswer) (as : List SendAnswer),
    Inv s → s.resetIn = false → s.ph = .idle → s.session = .ready → s.hostScript = .cmd 1#1 :: rest →
    s.sendAnswers = a :: as →
    (a = .err ∨ a = .count 0 →
      ∃ n t d, run n s = .next t ∧ t.ph = .idle ∧ 10000 ≤ d ∧ d ≤ 20000 ∧
        t.trace = s.trace ++ [.cmd 1#1, .delay d, .tx [0x00#8] a, .rsp (.err .armFailure)] ∧
        t.session = .faulted ∧ t.reason = some .armFailure ∧ t.stepIx = s.stepIx ∧ t.hostScript = rest ∧
        t.sendAnswers = as ∧ t.recvAnswers = s.recvAnswers ∧ t.initTable = s.initTable) ∧
    ∀ (b : RecvAnswer) (bs : List RecvAnswer), accepts 1 a → s.recvAnswers = b :: bs →
      ∃ n t d, run n s = .next t ∧ t.ph = .idle ∧ 10000 ≤ d ∧ d ≤ 20000 ∧
        t.trace = s.trace ++ .cmd 1#1 :: .delay d :: pollEvents a b ∧
        t.session = sessionAfter (pollFailure a b) ∧ t.reason = pollFailure a b ∧ t.stepIx = s.stepIx ∧
        t.hostScript = rest ∧ t.sendAnswers = as ∧ t.recvAnswers = bs ∧ t.initTable = s.initTable

/-- R163, R164, R165, R198: a command the session state does not allow, taken by a step, is answered `Rejected` and only that: no state of the NSC changes, no
delay, transaction or sink message. (The spec's decision D13.) -/
def Obligations.RejectedCommandStep : Prop :=
  ∀ (s : State) (op : BitVec 1) (rest : List HostMove), s.resetIn = false → s.ph = .idle → s.hostScript = .cmd op :: rest →
    (op = 0#1 ∧ s.session ≠ .uninitialized) ∨ (op = 1#1 ∧ s.session ≠ .ready) →
    step s = .next { s with hostScript := rest, trace := s.trace ++ [.cmd op, .rsp .rejected] }

/-- R208, R211: a pacing delay is the drawing instance's own, a fresh one each time: it is the value of the instance's source at its counter, brought
between the bounds; the counter moves on with it and never goes back, and no step changes the source. Nothing is said of how the values
of two sources, or two values of one, relate: the statement holds for every value of the free function. (The source and the
counter are the model's fields: log 6, log 7, log 31; the bounds in whole microseconds: the spec's decision D10.) -/
def Obligations.DrawsAreTheInstancesOwn : Prop :=
  ∀ s t : State, step s = .next t →
    t.freeSource = s.freeSource ∧ s.freeIx ≤ t.freeIx ∧
      (s.ph = .pPace → t.freeIx = s.freeIx + 1 ∧
        t.trace = s.trace ++ [.delay (10000 + Config.draw s.freeSource s.freeIx % 10001)])
end

