-- ==== Sys2Proof/Laws/Codec.lean ====
section
/-! SUPPORT. The two halves of an entry word. -/

namespace Sys2Proof

/-- The register half of an assembled entry. -/
@[simp] theorem entryReg_entryOf (reg val : Byte) : entryReg (entryOf reg val) = reg := by
  unfold entryReg entryOf
  ext i hi
  simp only [BitVec.getElem_extractLsb', BitVec.getLsbD_append]
  simp [show ¬8 + i < 8 by omega, BitVec.getLsbD_eq_getElem hi]

/-- The value half of an assembled entry. -/
@[simp] theorem entryVal_entryOf (reg val : Byte) : entryVal (entryOf reg val) = val := by
  unfold entryVal entryOf
  ext i hi
  simp only [BitVec.getElem_extractLsb', BitVec.getLsbD_append]
  simp [hi]

/-- An entry is assembled from its two halves. -/
@[simp] theorem entryOf_halves (word : Entry) : entryOf (entryReg word) (entryVal word) = word := by
  unfold entryReg entryVal entryOf
  ext i hi
  simp only [BitVec.getElem_append, BitVec.getElem_extractLsb']
  split <;> rename_i h
  · rw [BitVec.getLsbD_eq_getElem (by omega)]
    simp
  · rw [BitVec.getLsbD_eq_getElem (by omega)]
    simp [show 8 + (i - 8) = i by omega]

end Sys2Proof
end

