-- ==== Sys2Proof/Laws/State.lean ====
section
/-! SUPPORT. The fields of the state after each write: one lemma per field per update, so that no later proof unfolds a record
update. -/

namespace Sys2Proof.Machine

@[simp] theorem setSession_session (v : Session) (s : State) : (setSession v s).session = v := rfl
@[simp] theorem setSession_reason (v : Session) (s : State) : (setSession v s).reason = s.reason := rfl
@[simp] theorem setSession_stepIx (v : Session) (s : State) : (setSession v s).stepIx = s.stepIx := rfl
@[simp] theorem setSession_ph (v : Session) (s : State) : (setSession v s).ph = s.ph := rfl
@[simp] theorem setSession_txbuf (v : Session) (s : State) : (setSession v s).txbuf = s.txbuf := rfl
@[simp] theorem setSession_rxbuf (v : Session) (s : State) : (setSession v s).rxbuf = s.rxbuf := rfl
@[simp] theorem setSession_btn (v : Session) (s : State) : (setSession v s).btn = s.btn := rfl
@[simp] theorem setSession_busReq (v : Session) (s : State) : (setSession v s).busReq = s.busReq := rfl
@[simp] theorem setSession_initTable (v : Session) (s : State) : (setSession v s).initTable = s.initTable := rfl
@[simp] theorem setSession_hostScript (v : Session) (s : State) : (setSession v s).hostScript = s.hostScript := rfl
@[simp] theorem setSession_resetIn (v : Session) (s : State) : (setSession v s).resetIn = s.resetIn := rfl
@[simp] theorem setSession_sendAnswers (v : Session) (s : State) : (setSession v s).sendAnswers = s.sendAnswers := rfl
@[simp] theorem setSession_recvAnswers (v : Session) (s : State) : (setSession v s).recvAnswers = s.recvAnswers := rfl
@[simp] theorem setSession_freeSource (v : Session) (s : State) : (setSession v s).freeSource = s.freeSource := rfl
@[simp] theorem setSession_freeIx (v : Session) (s : State) : (setSession v s).freeIx = s.freeIx := rfl
@[simp] theorem setSession_trace (v : Session) (s : State) : (setSession v s).trace = s.trace := rfl

@[simp] theorem setReason_session (v : Option ErrKind) (s : State) : (setReason v s).session = s.session := rfl
@[simp] theorem setReason_reason (v : Option ErrKind) (s : State) : (setReason v s).reason = v := rfl
@[simp] theorem setReason_stepIx (v : Option ErrKind) (s : State) : (setReason v s).stepIx = s.stepIx := rfl
@[simp] theorem setReason_ph (v : Option ErrKind) (s : State) : (setReason v s).ph = s.ph := rfl
@[simp] theorem setReason_txbuf (v : Option ErrKind) (s : State) : (setReason v s).txbuf = s.txbuf := rfl
@[simp] theorem setReason_rxbuf (v : Option ErrKind) (s : State) : (setReason v s).rxbuf = s.rxbuf := rfl
@[simp] theorem setReason_btn (v : Option ErrKind) (s : State) : (setReason v s).btn = s.btn := rfl
@[simp] theorem setReason_busReq (v : Option ErrKind) (s : State) : (setReason v s).busReq = s.busReq := rfl
@[simp] theorem setReason_initTable (v : Option ErrKind) (s : State) : (setReason v s).initTable = s.initTable := rfl
@[simp] theorem setReason_hostScript (v : Option ErrKind) (s : State) : (setReason v s).hostScript = s.hostScript := rfl
@[simp] theorem setReason_resetIn (v : Option ErrKind) (s : State) : (setReason v s).resetIn = s.resetIn := rfl
@[simp] theorem setReason_sendAnswers (v : Option ErrKind) (s : State) : (setReason v s).sendAnswers = s.sendAnswers := rfl
@[simp] theorem setReason_recvAnswers (v : Option ErrKind) (s : State) : (setReason v s).recvAnswers = s.recvAnswers := rfl
@[simp] theorem setReason_freeSource (v : Option ErrKind) (s : State) : (setReason v s).freeSource = s.freeSource := rfl
@[simp] theorem setReason_freeIx (v : Option ErrKind) (s : State) : (setReason v s).freeIx = s.freeIx := rfl
@[simp] theorem setReason_trace (v : Option ErrKind) (s : State) : (setReason v s).trace = s.trace := rfl

@[simp] theorem setStep_session (v : Nat) (s : State) : (setStep v s).session = s.session := rfl
@[simp] theorem setStep_reason (v : Nat) (s : State) : (setStep v s).reason = s.reason := rfl
@[simp] theorem setStep_stepIx (v : Nat) (s : State) : (setStep v s).stepIx = v := rfl
@[simp] theorem setStep_ph (v : Nat) (s : State) : (setStep v s).ph = s.ph := rfl
@[simp] theorem setStep_txbuf (v : Nat) (s : State) : (setStep v s).txbuf = s.txbuf := rfl
@[simp] theorem setStep_rxbuf (v : Nat) (s : State) : (setStep v s).rxbuf = s.rxbuf := rfl
@[simp] theorem setStep_btn (v : Nat) (s : State) : (setStep v s).btn = s.btn := rfl
@[simp] theorem setStep_busReq (v : Nat) (s : State) : (setStep v s).busReq = s.busReq := rfl
@[simp] theorem setStep_initTable (v : Nat) (s : State) : (setStep v s).initTable = s.initTable := rfl
@[simp] theorem setStep_hostScript (v : Nat) (s : State) : (setStep v s).hostScript = s.hostScript := rfl
@[simp] theorem setStep_resetIn (v : Nat) (s : State) : (setStep v s).resetIn = s.resetIn := rfl
@[simp] theorem setStep_sendAnswers (v : Nat) (s : State) : (setStep v s).sendAnswers = s.sendAnswers := rfl
@[simp] theorem setStep_recvAnswers (v : Nat) (s : State) : (setStep v s).recvAnswers = s.recvAnswers := rfl
@[simp] theorem setStep_freeSource (v : Nat) (s : State) : (setStep v s).freeSource = s.freeSource := rfl
@[simp] theorem setStep_freeIx (v : Nat) (s : State) : (setStep v s).freeIx = s.freeIx := rfl
@[simp] theorem setStep_trace (v : Nat) (s : State) : (setStep v s).trace = s.trace := rfl

@[simp] theorem setPhase_session (v : Phase) (s : State) : (setPhase v s).session = s.session := rfl
@[simp] theorem setPhase_reason (v : Phase) (s : State) : (setPhase v s).reason = s.reason := rfl
@[simp] theorem setPhase_stepIx (v : Phase) (s : State) : (setPhase v s).stepIx = s.stepIx := rfl
@[simp] theorem setPhase_ph (v : Phase) (s : State) : (setPhase v s).ph = v := rfl
@[simp] theorem setPhase_txbuf (v : Phase) (s : State) : (setPhase v s).txbuf = s.txbuf := rfl
@[simp] theorem setPhase_rxbuf (v : Phase) (s : State) : (setPhase v s).rxbuf = s.rxbuf := rfl
@[simp] theorem setPhase_btn (v : Phase) (s : State) : (setPhase v s).btn = s.btn := rfl
@[simp] theorem setPhase_busReq (v : Phase) (s : State) : (setPhase v s).busReq = s.busReq := rfl
@[simp] theorem setPhase_initTable (v : Phase) (s : State) : (setPhase v s).initTable = s.initTable := rfl
@[simp] theorem setPhase_hostScript (v : Phase) (s : State) : (setPhase v s).hostScript = s.hostScript := rfl
@[simp] theorem setPhase_resetIn (v : Phase) (s : State) : (setPhase v s).resetIn = s.resetIn := rfl
@[simp] theorem setPhase_sendAnswers (v : Phase) (s : State) : (setPhase v s).sendAnswers = s.sendAnswers := rfl
@[simp] theorem setPhase_recvAnswers (v : Phase) (s : State) : (setPhase v s).recvAnswers = s.recvAnswers := rfl
@[simp] theorem setPhase_freeSource (v : Phase) (s : State) : (setPhase v s).freeSource = s.freeSource := rfl
@[simp] theorem setPhase_freeIx (v : Phase) (s : State) : (setPhase v s).freeIx = s.freeIx := rfl
@[simp] theorem setPhase_trace (v : Phase) (s : State) : (setPhase v s).trace = s.trace := rfl

@[simp] theorem setTx0_session (v : Byte) (s : State) : (setTx0 v s).session = s.session := rfl
@[simp] theorem setTx0_reason (v : Byte) (s : State) : (setTx0 v s).reason = s.reason := rfl
@[simp] theorem setTx0_stepIx (v : Byte) (s : State) : (setTx0 v s).stepIx = s.stepIx := rfl
@[simp] theorem setTx0_ph (v : Byte) (s : State) : (setTx0 v s).ph = s.ph := rfl
@[simp] theorem setTx0_txbuf (v : Byte) (s : State) : (setTx0 v s).txbuf = s.txbuf.set 0 v := rfl
@[simp] theorem setTx0_rxbuf (v : Byte) (s : State) : (setTx0 v s).rxbuf = s.rxbuf := rfl
@[simp] theorem setTx0_btn (v : Byte) (s : State) : (setTx0 v s).btn = s.btn := rfl
@[simp] theorem setTx0_busReq (v : Byte) (s : State) : (setTx0 v s).busReq = s.busReq := rfl
@[simp] theorem setTx0_initTable (v : Byte) (s : State) : (setTx0 v s).initTable = s.initTable := rfl
@[simp] theorem setTx0_hostScript (v : Byte) (s : State) : (setTx0 v s).hostScript = s.hostScript := rfl
@[simp] theorem setTx0_resetIn (v : Byte) (s : State) : (setTx0 v s).resetIn = s.resetIn := rfl
@[simp] theorem setTx0_sendAnswers (v : Byte) (s : State) : (setTx0 v s).sendAnswers = s.sendAnswers := rfl
@[simp] theorem setTx0_recvAnswers (v : Byte) (s : State) : (setTx0 v s).recvAnswers = s.recvAnswers := rfl
@[simp] theorem setTx0_freeSource (v : Byte) (s : State) : (setTx0 v s).freeSource = s.freeSource := rfl
@[simp] theorem setTx0_freeIx (v : Byte) (s : State) : (setTx0 v s).freeIx = s.freeIx := rfl
@[simp] theorem setTx0_trace (v : Byte) (s : State) : (setTx0 v s).trace = s.trace := rfl

@[simp] theorem setTx1_session (v : Byte) (s : State) : (setTx1 v s).session = s.session := rfl
@[simp] theorem setTx1_reason (v : Byte) (s : State) : (setTx1 v s).reason = s.reason := rfl
@[simp] theorem setTx1_stepIx (v : Byte) (s : State) : (setTx1 v s).stepIx = s.stepIx := rfl
@[simp] theorem setTx1_ph (v : Byte) (s : State) : (setTx1 v s).ph = s.ph := rfl
@[simp] theorem setTx1_txbuf (v : Byte) (s : State) : (setTx1 v s).txbuf = s.txbuf.set 1 v := rfl
@[simp] theorem setTx1_rxbuf (v : Byte) (s : State) : (setTx1 v s).rxbuf = s.rxbuf := rfl
@[simp] theorem setTx1_btn (v : Byte) (s : State) : (setTx1 v s).btn = s.btn := rfl
@[simp] theorem setTx1_busReq (v : Byte) (s : State) : (setTx1 v s).busReq = s.busReq := rfl
@[simp] theorem setTx1_initTable (v : Byte) (s : State) : (setTx1 v s).initTable = s.initTable := rfl
@[simp] theorem setTx1_hostScript (v : Byte) (s : State) : (setTx1 v s).hostScript = s.hostScript := rfl
@[simp] theorem setTx1_resetIn (v : Byte) (s : State) : (setTx1 v s).resetIn = s.resetIn := rfl
@[simp] theorem setTx1_sendAnswers (v : Byte) (s : State) : (setTx1 v s).sendAnswers = s.sendAnswers := rfl
@[simp] theorem setTx1_recvAnswers (v : Byte) (s : State) : (setTx1 v s).recvAnswers = s.recvAnswers := rfl
@[simp] theorem setTx1_freeSource (v : Byte) (s : State) : (setTx1 v s).freeSource = s.freeSource := rfl
@[simp] theorem setTx1_freeIx (v : Byte) (s : State) : (setTx1 v s).freeIx = s.freeIx := rfl
@[simp] theorem setTx1_trace (v : Byte) (s : State) : (setTx1 v s).trace = s.trace := rfl

@[simp] theorem setRx_session (v : Report) (s : State) : (setRx v s).session = s.session := rfl
@[simp] theorem setRx_reason (v : Report) (s : State) : (setRx v s).reason = s.reason := rfl
@[simp] theorem setRx_stepIx (v : Report) (s : State) : (setRx v s).stepIx = s.stepIx := rfl
@[simp] theorem setRx_ph (v : Report) (s : State) : (setRx v s).ph = s.ph := rfl
@[simp] theorem setRx_txbuf (v : Report) (s : State) : (setRx v s).txbuf = s.txbuf := rfl
@[simp] theorem setRx_rxbuf (v : Report) (s : State) : (setRx v s).rxbuf = v := rfl
@[simp] theorem setRx_btn (v : Report) (s : State) : (setRx v s).btn = s.btn := rfl
@[simp] theorem setRx_busReq (v : Report) (s : State) : (setRx v s).busReq = s.busReq := rfl
@[simp] theorem setRx_initTable (v : Report) (s : State) : (setRx v s).initTable = s.initTable := rfl
@[simp] theorem setRx_hostScript (v : Report) (s : State) : (setRx v s).hostScript = s.hostScript := rfl
@[simp] theorem setRx_resetIn (v : Report) (s : State) : (setRx v s).resetIn = s.resetIn := rfl
@[simp] theorem setRx_sendAnswers (v : Report) (s : State) : (setRx v s).sendAnswers = s.sendAnswers := rfl
@[simp] theorem setRx_recvAnswers (v : Report) (s : State) : (setRx v s).recvAnswers = s.recvAnswers := rfl
@[simp] theorem setRx_freeSource (v : Report) (s : State) : (setRx v s).freeSource = s.freeSource := rfl
@[simp] theorem setRx_freeIx (v : Report) (s : State) : (setRx v s).freeIx = s.freeIx := rfl
@[simp] theorem setRx_trace (v : Report) (s : State) : (setRx v s).trace = s.trace := rfl

@[simp] theorem setBtn_session (v : ButtonState) (s : State) : (setBtn v s).session = s.session := rfl
@[simp] theorem setBtn_reason (v : ButtonState) (s : State) : (setBtn v s).reason = s.reason := rfl
@[simp] theorem setBtn_stepIx (v : ButtonState) (s : State) : (setBtn v s).stepIx = s.stepIx := rfl
@[simp] theorem setBtn_ph (v : ButtonState) (s : State) : (setBtn v s).ph = s.ph := rfl
@[simp] theorem setBtn_txbuf (v : ButtonState) (s : State) : (setBtn v s).txbuf = s.txbuf := rfl
@[simp] theorem setBtn_rxbuf (v : ButtonState) (s : State) : (setBtn v s).rxbuf = s.rxbuf := rfl
@[simp] theorem setBtn_btn (v : ButtonState) (s : State) : (setBtn v s).btn = v := rfl
@[simp] theorem setBtn_busReq (v : ButtonState) (s : State) : (setBtn v s).busReq = s.busReq := rfl
@[simp] theorem setBtn_initTable (v : ButtonState) (s : State) : (setBtn v s).initTable = s.initTable := rfl
@[simp] theorem setBtn_hostScript (v : ButtonState) (s : State) : (setBtn v s).hostScript = s.hostScript := rfl
@[simp] theorem setBtn_resetIn (v : ButtonState) (s : State) : (setBtn v s).resetIn = s.resetIn := rfl
@[simp] theorem setBtn_sendAnswers (v : ButtonState) (s : State) : (setBtn v s).sendAnswers = s.sendAnswers := rfl
@[simp] theorem setBtn_recvAnswers (v : ButtonState) (s : State) : (setBtn v s).recvAnswers = s.recvAnswers := rfl
@[simp] theorem setBtn_freeSource (v : ButtonState) (s : State) : (setBtn v s).freeSource = s.freeSource := rfl
@[simp] theorem setBtn_freeIx (v : ButtonState) (s : State) : (setBtn v s).freeIx = s.freeIx := rfl
@[simp] theorem setBtn_trace (v : ButtonState) (s : State) : (setBtn v s).trace = s.trace := rfl

@[simp] theorem setBusReq_session (v : Option BusRequest) (s : State) : (setBusReq v s).session = s.session := rfl
@[simp] theorem setBusReq_reason (v : Option BusRequest) (s : State) : (setBusReq v s).reason = s.reason := rfl
@[simp] theorem setBusReq_stepIx (v : Option BusRequest) (s : State) : (setBusReq v s).stepIx = s.stepIx := rfl
@[simp] theorem setBusReq_ph (v : Option BusRequest) (s : State) : (setBusReq v s).ph = s.ph := rfl
@[simp] theorem setBusReq_txbuf (v : Option BusRequest) (s : State) : (setBusReq v s).txbuf = s.txbuf := rfl
@[simp] theorem setBusReq_rxbuf (v : Option BusRequest) (s : State) : (setBusReq v s).rxbuf = s.rxbuf := rfl
@[simp] theorem setBusReq_btn (v : Option BusRequest) (s : State) : (setBusReq v s).btn = s.btn := rfl
@[simp] theorem setBusReq_busReq (v : Option BusRequest) (s : State) : (setBusReq v s).busReq = v := rfl
@[simp] theorem setBusReq_initTable (v : Option BusRequest) (s : State) : (setBusReq v s).initTable = s.initTable := rfl
@[simp] theorem setBusReq_hostScript (v : Option BusRequest) (s : State) : (setBusReq v s).hostScript = s.hostScript := rfl
@[simp] theorem setBusReq_resetIn (v : Option BusRequest) (s : State) : (setBusReq v s).resetIn = s.resetIn := rfl
@[simp] theorem setBusReq_sendAnswers (v : Option BusRequest) (s : State) : (setBusReq v s).sendAnswers = s.sendAnswers := rfl
@[simp] theorem setBusReq_recvAnswers (v : Option BusRequest) (s : State) : (setBusReq v s).recvAnswers = s.recvAnswers := rfl
@[simp] theorem setBusReq_freeSource (v : Option BusRequest) (s : State) : (setBusReq v s).freeSource = s.freeSource := rfl
@[simp] theorem setBusReq_freeIx (v : Option BusRequest) (s : State) : (setBusReq v s).freeIx = s.freeIx := rfl
@[simp] theorem setBusReq_trace (v : Option BusRequest) (s : State) : (setBusReq v s).trace = s.trace := rfl

@[simp] theorem setHostScript_session (v : List HostMove) (s : State) : (setHostScript v s).session = s.session := rfl
@[simp] theorem setHostScript_reason (v : List HostMove) (s : State) : (setHostScript v s).reason = s.reason := rfl
@[simp] theorem setHostScript_stepIx (v : List HostMove) (s : State) : (setHostScript v s).stepIx = s.stepIx := rfl
@[simp] theorem setHostScript_ph (v : List HostMove) (s : State) : (setHostScript v s).ph = s.ph := rfl
@[simp] theorem setHostScript_txbuf (v : List HostMove) (s : State) : (setHostScript v s).txbuf = s.txbuf := rfl
@[simp] theorem setHostScript_rxbuf (v : List HostMove) (s : State) : (setHostScript v s).rxbuf = s.rxbuf := rfl
@[simp] theorem setHostScript_btn (v : List HostMove) (s : State) : (setHostScript v s).btn = s.btn := rfl
@[simp] theorem setHostScript_busReq (v : List HostMove) (s : State) : (setHostScript v s).busReq = s.busReq := rfl
@[simp] theorem setHostScript_initTable (v : List HostMove) (s : State) : (setHostScript v s).initTable = s.initTable := rfl
@[simp] theorem setHostScript_hostScript (v : List HostMove) (s : State) : (setHostScript v s).hostScript = v := rfl
@[simp] theorem setHostScript_resetIn (v : List HostMove) (s : State) : (setHostScript v s).resetIn = s.resetIn := rfl
@[simp] theorem setHostScript_sendAnswers (v : List HostMove) (s : State) : (setHostScript v s).sendAnswers = s.sendAnswers := rfl
@[simp] theorem setHostScript_recvAnswers (v : List HostMove) (s : State) : (setHostScript v s).recvAnswers = s.recvAnswers := rfl
@[simp] theorem setHostScript_freeSource (v : List HostMove) (s : State) : (setHostScript v s).freeSource = s.freeSource := rfl
@[simp] theorem setHostScript_freeIx (v : List HostMove) (s : State) : (setHostScript v s).freeIx = s.freeIx := rfl
@[simp] theorem setHostScript_trace (v : List HostMove) (s : State) : (setHostScript v s).trace = s.trace := rfl

@[simp] theorem setResetIn_session (v : Bool) (s : State) : (setResetIn v s).session = s.session := rfl
@[simp] theorem setResetIn_reason (v : Bool) (s : State) : (setResetIn v s).reason = s.reason := rfl
@[simp] theorem setResetIn_stepIx (v : Bool) (s : State) : (setResetIn v s).stepIx = s.stepIx := rfl
@[simp] theorem setResetIn_ph (v : Bool) (s : State) : (setResetIn v s).ph = s.ph := rfl
@[simp] theorem setResetIn_txbuf (v : Bool) (s : State) : (setResetIn v s).txbuf = s.txbuf := rfl
@[simp] theorem setResetIn_rxbuf (v : Bool) (s : State) : (setResetIn v s).rxbuf = s.rxbuf := rfl
@[simp] theorem setResetIn_btn (v : Bool) (s : State) : (setResetIn v s).btn = s.btn := rfl
@[simp] theorem setResetIn_busReq (v : Bool) (s : State) : (setResetIn v s).busReq = s.busReq := rfl
@[simp] theorem setResetIn_initTable (v : Bool) (s : State) : (setResetIn v s).initTable = s.initTable := rfl
@[simp] theorem setResetIn_hostScript (v : Bool) (s : State) : (setResetIn v s).hostScript = s.hostScript := rfl
@[simp] theorem setResetIn_resetIn (v : Bool) (s : State) : (setResetIn v s).resetIn = v := rfl
@[simp] theorem setResetIn_sendAnswers (v : Bool) (s : State) : (setResetIn v s).sendAnswers = s.sendAnswers := rfl
@[simp] theorem setResetIn_recvAnswers (v : Bool) (s : State) : (setResetIn v s).recvAnswers = s.recvAnswers := rfl
@[simp] theorem setResetIn_freeSource (v : Bool) (s : State) : (setResetIn v s).freeSource = s.freeSource := rfl
@[simp] theorem setResetIn_freeIx (v : Bool) (s : State) : (setResetIn v s).freeIx = s.freeIx := rfl
@[simp] theorem setResetIn_trace (v : Bool) (s : State) : (setResetIn v s).trace = s.trace := rfl

@[simp] theorem setInitTable_session (v : List Entry) (s : State) : (setInitTable v s).session = s.session := rfl
@[simp] theorem setInitTable_reason (v : List Entry) (s : State) : (setInitTable v s).reason = s.reason := rfl
@[simp] theorem setInitTable_stepIx (v : List Entry) (s : State) : (setInitTable v s).stepIx = s.stepIx := rfl
@[simp] theorem setInitTable_ph (v : List Entry) (s : State) : (setInitTable v s).ph = s.ph := rfl
@[simp] theorem setInitTable_txbuf (v : List Entry) (s : State) : (setInitTable v s).txbuf = s.txbuf := rfl
@[simp] theorem setInitTable_rxbuf (v : List Entry) (s : State) : (setInitTable v s).rxbuf = s.rxbuf := rfl
@[simp] theorem setInitTable_btn (v : List Entry) (s : State) : (setInitTable v s).btn = s.btn := rfl
@[simp] theorem setInitTable_busReq (v : List Entry) (s : State) : (setInitTable v s).busReq = s.busReq := rfl
@[simp] theorem setInitTable_initTable (v : List Entry) (s : State) : (setInitTable v s).initTable = v := rfl
@[simp] theorem setInitTable_hostScript (v : List Entry) (s : State) : (setInitTable v s).hostScript = s.hostScript := rfl
@[simp] theorem setInitTable_resetIn (v : List Entry) (s : State) : (setInitTable v s).resetIn = s.resetIn := rfl
@[simp] theorem setInitTable_sendAnswers (v : List Entry) (s : State) : (setInitTable v s).sendAnswers = s.sendAnswers := rfl
@[simp] theorem setInitTable_recvAnswers (v : List Entry) (s : State) : (setInitTable v s).recvAnswers = s.recvAnswers := rfl
@[simp] theorem setInitTable_freeSource (v : List Entry) (s : State) : (setInitTable v s).freeSource = s.freeSource := rfl
@[simp] theorem setInitTable_freeIx (v : List Entry) (s : State) : (setInitTable v s).freeIx = s.freeIx := rfl
@[simp] theorem setInitTable_trace (v : List Entry) (s : State) : (setInitTable v s).trace = s.trace := rfl

@[simp] theorem setSendAnswers_session (v : List SendAnswer) (s : State) : (setSendAnswers v s).session = s.session := rfl
@[simp] theorem setSendAnswers_reason (v : List SendAnswer) (s : State) : (setSendAnswers v s).reason = s.reason := rfl
@[simp] theorem setSendAnswers_stepIx (v : List SendAnswer) (s : State) : (setSendAnswers v s).stepIx = s.stepIx := rfl
@[simp] theorem setSendAnswers_ph (v : List SendAnswer) (s : State) : (setSendAnswers v s).ph = s.ph := rfl
@[simp] theorem setSendAnswers_txbuf (v : List SendAnswer) (s : State) : (setSendAnswers v s).txbuf = s.txbuf := rfl
@[simp] theorem setSendAnswers_rxbuf (v : List SendAnswer) (s : State) : (setSendAnswers v s).rxbuf = s.rxbuf := rfl
@[simp] theorem setSendAnswers_btn (v : List SendAnswer) (s : State) : (setSendAnswers v s).btn = s.btn := rfl
@[simp] theorem setSendAnswers_busReq (v : List SendAnswer) (s : State) : (setSendAnswers v s).busReq = s.busReq := rfl
@[simp] theorem setSendAnswers_initTable (v : List SendAnswer) (s : State) : (setSendAnswers v s).initTable = s.initTable := rfl
@[simp] theorem setSendAnswers_hostScript (v : List SendAnswer) (s : State) : (setSendAnswers v s).hostScript = s.hostScript := rfl
@[simp] theorem setSendAnswers_resetIn (v : List SendAnswer) (s : State) : (setSendAnswers v s).resetIn = s.resetIn := rfl
@[simp] theorem setSendAnswers_sendAnswers (v : List SendAnswer) (s : State) : (setSendAnswers v s).sendAnswers = v := rfl
@[simp] theorem setSendAnswers_recvAnswers (v : List SendAnswer) (s : State) : (setSendAnswers v s).recvAnswers = s.recvAnswers := rfl
@[simp] theorem setSendAnswers_freeSource (v : List SendAnswer) (s : State) : (setSendAnswers v s).freeSource = s.freeSource := rfl
@[simp] theorem setSendAnswers_freeIx (v : List SendAnswer) (s : State) : (setSendAnswers v s).freeIx = s.freeIx := rfl
@[simp] theorem setSendAnswers_trace (v : List SendAnswer) (s : State) : (setSendAnswers v s).trace = s.trace := rfl

@[simp] theorem setRecvAnswers_session (v : List RecvAnswer) (s : State) : (setRecvAnswers v s).session = s.session := rfl
@[simp] theorem setRecvAnswers_reason (v : List RecvAnswer) (s : State) : (setRecvAnswers v s).reason = s.reason := rfl
@[simp] theorem setRecvAnswers_stepIx (v : List RecvAnswer) (s : State) : (setRecvAnswers v s).stepIx = s.stepIx := rfl
@[simp] theorem setRecvAnswers_ph (v : List RecvAnswer) (s : State) : (setRecvAnswers v s).ph = s.ph := rfl
@[simp] theorem setRecvAnswers_txbuf (v : List RecvAnswer) (s : State) : (setRecvAnswers v s).txbuf = s.txbuf := rfl
@[simp] theorem setRecvAnswers_rxbuf (v : List RecvAnswer) (s : State) : (setRecvAnswers v s).rxbuf = s.rxbuf := rfl
@[simp] theorem setRecvAnswers_btn (v : List RecvAnswer) (s : State) : (setRecvAnswers v s).btn = s.btn := rfl
@[simp] theorem setRecvAnswers_busReq (v : List RecvAnswer) (s : State) : (setRecvAnswers v s).busReq = s.busReq := rfl
@[simp] theorem setRecvAnswers_initTable (v : List RecvAnswer) (s : State) : (setRecvAnswers v s).initTable = s.initTable := rfl
@[simp] theorem setRecvAnswers_hostScript (v : List RecvAnswer) (s : State) : (setRecvAnswers v s).hostScript = s.hostScript := rfl
@[simp] theorem setRecvAnswers_resetIn (v : List RecvAnswer) (s : State) : (setRecvAnswers v s).resetIn = s.resetIn := rfl
@[simp] theorem setRecvAnswers_sendAnswers (v : List RecvAnswer) (s : State) : (setRecvAnswers v s).sendAnswers = s.sendAnswers := rfl
@[simp] theorem setRecvAnswers_recvAnswers (v : List RecvAnswer) (s : State) : (setRecvAnswers v s).recvAnswers = v := rfl
@[simp] theorem setRecvAnswers_freeSource (v : List RecvAnswer) (s : State) : (setRecvAnswers v s).freeSource = s.freeSource := rfl
@[simp] theorem setRecvAnswers_freeIx (v : List RecvAnswer) (s : State) : (setRecvAnswers v s).freeIx = s.freeIx := rfl
@[simp] theorem setRecvAnswers_trace (v : List RecvAnswer) (s : State) : (setRecvAnswers v s).trace = s.trace := rfl

@[simp] theorem useFree_session (s : State) : (useFree s).session = s.session := rfl
@[simp] theorem useFree_reason (s : State) : (useFree s).reason = s.reason := rfl
@[simp] theorem useFree_stepIx (s : State) : (useFree s).stepIx = s.stepIx := rfl
@[simp] theorem useFree_ph (s : State) : (useFree s).ph = s.ph := rfl
@[simp] theorem useFree_txbuf (s : State) : (useFree s).txbuf = s.txbuf := rfl
@[simp] theorem useFree_rxbuf (s : State) : (useFree s).rxbuf = s.rxbuf := rfl
@[simp] theorem useFree_btn (s : State) : (useFree s).btn = s.btn := rfl
@[simp] theorem useFree_busReq (s : State) : (useFree s).busReq = s.busReq := rfl
@[simp] theorem useFree_initTable (s : State) : (useFree s).initTable = s.initTable := rfl
@[simp] theorem useFree_hostScript (s : State) : (useFree s).hostScript = s.hostScript := rfl
@[simp] theorem useFree_resetIn (s : State) : (useFree s).resetIn = s.resetIn := rfl
@[simp] theorem useFree_sendAnswers (s : State) : (useFree s).sendAnswers = s.sendAnswers := rfl
@[simp] theorem useFree_recvAnswers (s : State) : (useFree s).recvAnswers = s.recvAnswers := rfl
@[simp] theorem useFree_freeSource (s : State) : (useFree s).freeSource = s.freeSource := rfl
@[simp] theorem useFree_freeIx (s : State) : (useFree s).freeIx = s.freeIx + 1 := rfl
@[simp] theorem useFree_trace (s : State) : (useFree s).trace = s.trace := rfl

@[simp] theorem emit_session (v : Event) (s : State) : (emit v s).session = s.session := rfl
@[simp] theorem emit_reason (v : Event) (s : State) : (emit v s).reason = s.reason := rfl
@[simp] theorem emit_stepIx (v : Event) (s : State) : (emit v s).stepIx = s.stepIx := rfl
@[simp] theorem emit_ph (v : Event) (s : State) : (emit v s).ph = s.ph := rfl
@[simp] theorem emit_txbuf (v : Event) (s : State) : (emit v s).txbuf = s.txbuf := rfl
@[simp] theorem emit_rxbuf (v : Event) (s : State) : (emit v s).rxbuf = s.rxbuf := rfl
@[simp] theorem emit_btn (v : Event) (s : State) : (emit v s).btn = s.btn := rfl
@[simp] theorem emit_busReq (v : Event) (s : State) : (emit v s).busReq = s.busReq := rfl
@[simp] theorem emit_initTable (v : Event) (s : State) : (emit v s).initTable = s.initTable := rfl
@[simp] theorem emit_hostScript (v : Event) (s : State) : (emit v s).hostScript = s.hostScript := rfl
@[simp] theorem emit_resetIn (v : Event) (s : State) : (emit v s).resetIn = s.resetIn := rfl
@[simp] theorem emit_sendAnswers (v : Event) (s : State) : (emit v s).sendAnswers = s.sendAnswers := rfl
@[simp] theorem emit_recvAnswers (v : Event) (s : State) : (emit v s).recvAnswers = s.recvAnswers := rfl
@[simp] theorem emit_freeSource (v : Event) (s : State) : (emit v s).freeSource = s.freeSource := rfl
@[simp] theorem emit_freeIx (v : Event) (s : State) : (emit v s).freeIx = s.freeIx := rfl
@[simp] theorem emit_trace (v : Event) (s : State) : (emit v s).trace = s.trace ++ [v] := rfl

@[simp] theorem raiseFault_session (v : ErrKind) (s : State) : (raiseFault v s).session = .faulted := rfl
@[simp] theorem raiseFault_reason (v : ErrKind) (s : State) : (raiseFault v s).reason = some v := rfl
@[simp] theorem raiseFault_stepIx (v : ErrKind) (s : State) : (raiseFault v s).stepIx = s.stepIx := rfl
@[simp] theorem raiseFault_ph (v : ErrKind) (s : State) : (raiseFault v s).ph = .idle := rfl
@[simp] theorem raiseFault_txbuf (v : ErrKind) (s : State) : (raiseFault v s).txbuf = s.txbuf := rfl
@[simp] theorem raiseFault_rxbuf (v : ErrKind) (s : State) : (raiseFault v s).rxbuf = s.rxbuf := rfl
@[simp] theorem raiseFault_btn (v : ErrKind) (s : State) : (raiseFault v s).btn = s.btn := rfl
@[simp] theorem raiseFault_busReq (v : ErrKind) (s : State) : (raiseFault v s).busReq = s.busReq := rfl
@[simp] theorem raiseFault_initTable (v : ErrKind) (s : State) : (raiseFault v s).initTable = s.initTable := rfl
@[simp] theorem raiseFault_hostScript (v : ErrKind) (s : State) : (raiseFault v s).hostScript = s.hostScript := rfl
@[simp] theorem raiseFault_resetIn (v : ErrKind) (s : State) : (raiseFault v s).resetIn = s.resetIn := rfl
@[simp] theorem raiseFault_sendAnswers (v : ErrKind) (s : State) : (raiseFault v s).sendAnswers = s.sendAnswers := rfl
@[simp] theorem raiseFault_recvAnswers (v : ErrKind) (s : State) : (raiseFault v s).recvAnswers = s.recvAnswers := rfl
@[simp] theorem raiseFault_freeSource (v : ErrKind) (s : State) : (raiseFault v s).freeSource = s.freeSource := rfl
@[simp] theorem raiseFault_freeIx (v : ErrKind) (s : State) : (raiseFault v s).freeIx = s.freeIx := rfl
@[simp] theorem raiseFault_trace (v : ErrKind) (s : State) : (raiseFault v s).trace = s.trace ++ [.rsp (.err v)] := rfl

@[simp] theorem initDone_session (s : State) : (initDone s).session = .ready := rfl
@[simp] theorem initDone_reason (s : State) : (initDone s).reason = s.reason := rfl
@[simp] theorem initDone_stepIx (s : State) : (initDone s).stepIx = s.stepIx := rfl
@[simp] theorem initDone_ph (s : State) : (initDone s).ph = .idle := rfl
@[simp] theorem initDone_txbuf (s : State) : (initDone s).txbuf = s.txbuf := rfl
@[simp] theorem initDone_rxbuf (s : State) : (initDone s).rxbuf = s.rxbuf := rfl
@[simp] theorem initDone_btn (s : State) : (initDone s).btn = s.btn := rfl
@[simp] theorem initDone_busReq (s : State) : (initDone s).busReq = s.busReq := rfl
@[simp] theorem initDone_initTable (s : State) : (initDone s).initTable = s.initTable := rfl
@[simp] theorem initDone_hostScript (s : State) : (initDone s).hostScript = s.hostScript := rfl
@[simp] theorem initDone_resetIn (s : State) : (initDone s).resetIn = s.resetIn := rfl
@[simp] theorem initDone_sendAnswers (s : State) : (initDone s).sendAnswers = s.sendAnswers := rfl
@[simp] theorem initDone_recvAnswers (s : State) : (initDone s).recvAnswers = s.recvAnswers := rfl
@[simp] theorem initDone_freeSource (s : State) : (initDone s).freeSource = s.freeSource := rfl
@[simp] theorem initDone_freeIx (s : State) : (initDone s).freeIx = s.freeIx := rfl
@[simp] theorem initDone_trace (s : State) : (initDone s).trace = s.trace ++ [.rsp .ok] := rfl

@[simp] theorem constructSession_session (s : State) : (constructSession s).session = .uninitialized := rfl
@[simp] theorem constructSession_reason (s : State) : (constructSession s).reason = none := rfl
@[simp] theorem constructSession_stepIx (s : State) : (constructSession s).stepIx = 0 := rfl
@[simp] theorem constructSession_ph (s : State) : (constructSession s).ph = .idle := rfl
@[simp] theorem constructSession_txbuf (s : State) : (constructSession s).txbuf = Config.resetTx s.freeSource s.freeIx := rfl
@[simp] theorem constructSession_rxbuf (s : State) : (constructSession s).rxbuf = Config.resetRx s.freeSource s.freeIx := rfl
@[simp] theorem constructSession_btn (s : State) : (constructSession s).btn = Config.resetBtn s.freeSource s.freeIx := rfl
@[simp] theorem constructSession_busReq (s : State) : (constructSession s).busReq = none := rfl
@[simp] theorem constructSession_initTable (s : State) : (constructSession s).initTable = s.initTable := rfl
@[simp] theorem constructSession_hostScript (s : State) : (constructSession s).hostScript = s.hostScript := rfl
@[simp] theorem constructSession_resetIn (s : State) : (constructSession s).resetIn = false := rfl
@[simp] theorem constructSession_sendAnswers (s : State) : (constructSession s).sendAnswers = s.sendAnswers := rfl
@[simp] theorem constructSession_recvAnswers (s : State) : (constructSession s).recvAnswers = s.recvAnswers := rfl
@[simp] theorem constructSession_freeSource (s : State) : (constructSession s).freeSource = s.freeSource := rfl
@[simp] theorem constructSession_freeIx (s : State) : (constructSession s).freeIx = s.freeIx + 1 := rfl
@[simp] theorem constructSession_trace (s : State) : (constructSession s).trace = s.trace ++ [.reset] := rfl

@[simp] theorem delay_eq (t : Nat) (s : State) : delay t s = emit (.delay t) s := rfl
@[simp] theorem respond_eq (r : Response) (s : State) : respond r s = emit (.rsp r) s := rfl
@[simp] theorem sinkKey_eq (id : Button) (level : Bool) (s : State) : sinkKey id level s = emit (.sink (.key id level)) s := rfl
@[simp] theorem sinkSync_eq (s : State) : sinkSync s = emit (.sink .sync) s := rfl

end Sys2Proof.Machine
end

