-- ==== Sys2Proof/Laws/Ops.lean ====
section
/-! SUPPORT. What each shared operation can do, said once: the transport's two primitives, the draw, the guards, the fetch and
the step. -/

namespace Sys2Proof.Machine

/-! ### The transport -/

/-- A send that is answered consumes the first answer, ends the transaction and is one event. -/
theorem busSend_answered {bytes : List Byte} {s t : State} {a : SendAnswer} (h : busSend bytes s = .answered a t) :
    ∃ rest, s.sendAnswers = a :: rest ∧ t = emit (.tx bytes a) (setBusReq none (setSendAnswers rest s)) := by
  unfold busSend at h
  split at h
  · cases h
  · rename_i x rest hs
    cases h
    exact ⟨rest, hs, rfl⟩

/-- A send that waits leaves the transaction outstanding and changes nothing else. -/
theorem busSend_waiting {bytes : List Byte} {s t : State} (h : busSend bytes s = .waiting t) :
    s.sendAnswers = [] ∧ t = setBusReq (some (.send bytes)) s := by
  unfold busSend at h
  split at h
  · rename_i hs
    cases h
    exact ⟨hs, rfl⟩
  · cases h

/-- A receive that is answered consumes the first answer, ends the transaction and is one event. -/
theorem busRecv_answered {n : Nat} {s t : State} {a : RecvAnswer} (h : busRecv n s = .answered a t) :
    ∃ rest, s.recvAnswers = a :: rest ∧ t = emit (.rx n a) (setBusReq none (setRecvAnswers rest s)) := by
  unfold busRecv at h
  split at h
  · cases h
  · rename_i x rest hs
    cases h
    exact ⟨rest, hs, rfl⟩

/-- A receive that waits leaves the transaction outstanding and changes nothing else. -/
theorem busRecv_waiting {n : Nat} {s t : State} (h : busRecv n s = .waiting t) :
    s.recvAnswers = [] ∧ t = setBusReq (some (.recv n)) s := by
  unfold busRecv at h
  split at h
  · rename_i hs
    cases h
    exact ⟨hs, rfl⟩
  · cases h

/-! ### The draw -/

/-- A draw lies between its bounds, both included (R208). -/
theorem drawValue_bounds {lo hi : Nat} (h : lo ≤ hi) (s : State) : lo ≤ drawValue lo hi s ∧ drawValue lo hi s ≤ hi := by
  unfold drawValue
  have := Nat.mod_lt (Config.draw s.freeSource s.freeIx) (show 0 < hi - lo + 1 by omega)
  constructor
  · exact Nat.le_add_right _ _
  · omega

/-! ### The guards -/

/-- A micro-operation that answers a next state was in its phase. -/
theorem inPhase_next {p : Phase} {s t : State} {k : Host.Outcome State Fault Refusal} (h : inPhase p s k = .next t) :
    s.ph = p ∧ k = .next t := by
  unfold inPhase at h
  split at h
  · rename_i hp
    exact ⟨hp, h⟩
  · cases h

/-- A command that answers a next state was given in `IDLE`. -/
theorem whenIdle_next {s t : State} {k : Host.Outcome State Fault Refusal} (h : whenIdle s k = .next t) :
    s.ph = .idle ∧ k = .next t := by
  unfold whenIdle at h
  split at h
  · rename_i hp
    exact ⟨hp, h⟩
  · cases h

/-- In its phase a micro-operation is its body. -/
theorem inPhase_of {p : Phase} {s : State} {k : Host.Outcome State Fault Refusal} (h : s.ph = p) : inPhase p s k = k := by
  simp [inPhase, h]

/-- In `IDLE` a command is its body. -/
theorem whenIdle_of {s : State} {k : Host.Outcome State Fault Refusal} (h : s.ph = .idle) : whenIdle s k = k := by
  simp [whenIdle, h]

/-! ### The failures of an answer -/

/-- A write of an init step fails or its answer accepts at least 2 bytes. -/
theorem wrFailure_none {a : SendAnswer} (h : wrFailure a = none) : ∃ k, a = .count k ∧ 2 ≤ k := by
  cases a with
  | err => simp [wrFailure] at h
  | count k =>
    refine ⟨k, rfl, ?_⟩
    have : ¬ k < wrLen := by
      intro hk
      simp [wrFailure, hk] at h
    exact Nat.not_lt.mp this

/-- The two failures of an init write (R190, R191). -/
theorem wrFailure_some {a : SendAnswer} {e : ErrKind} (h : wrFailure a = some e) :
    (a = .err ∧ e = .transportError) ∨ ∃ k, a = .count k ∧ k < 2 ∧ e = .shortWrite := by
  cases a with
  | err => exact .inl ⟨rfl, by simpa [wrFailure] using h.symm⟩
  | count k =>
    by_cases hk : k < wrLen
    · exact .inr ⟨k, rfl, hk, by simpa [wrFailure, hk] using h.symm⟩
    · simp [wrFailure, hk] at h

/-- An arming write fails or its answer accepts at least 1 byte. -/
theorem armFailure_none {a : SendAnswer} (h : armFailure a = none) : ∃ k, a = .count k ∧ 1 ≤ k := by
  cases a with
  | err => simp [armFailure] at h
  | count k =>
    refine ⟨k, rfl, ?_⟩
    have : ¬ k < armLen := by
      intro hk
      simp [armFailure, hk] at h
    simpa [armLen, Nat.one_le_iff_ne_zero] using this

/-- The one failure of an arming write (R192). -/
theorem armFailure_some {a : SendAnswer} {e : ErrKind} (h : armFailure a = some e) :
    e = .armFailure ∧ (a = .err ∨ a = .count 0) := by
  cases a with
  | err => exact ⟨by simpa [armFailure] using h.symm, .inl rfl⟩
  | count k =>
    by_cases hk : k < armLen
    · have : k = 0 := by simpa [armLen] using hk
      exact ⟨by simpa [armFailure, hk] using h.symm, .inr (by rw [this])⟩
    · simp [armFailure, hk] at h

/-- The bytes of a report are the bytes it was made from (R56). -/
@[simp] theorem reportOf_toList (d : List Byte) (h : d.length = reportLen) : (reportOf d h).toList = d := rfl

/-! ### The masks -/

/-- Masking with 0b01 and comparing with zero reads bit 0 (R152). -/
theorem zPressedOf_eq (b : Byte) : zPressedOf b = !b.getLsbD 0 := by
  revert b; decide

/-- Masking with 0b10 and comparing with zero reads bit 1 (R152). -/
theorem cPressedOf_eq (b : Byte) : cPressedOf b = !b.getLsbD 1 := by
  revert b; decide

/-! ### The codes -/

/-- The code of a phase names it back (R87). -/
@[simp] theorem phase_ofCode_code (p : Phase) : Phase.ofCode p.code = p := by
  cases p <;> rfl

/-- The phase a code names has that code (R87). -/
@[simp] theorem phase_code_ofCode (c : BitVec 3) : (Phase.ofCode c).code = c := by
  revert c; decide

/-! ### The fetch and the step -/

/-- Everything the fetch can yield as an operation: the host's next command, the entry `STEP` names, or the phase's own. -/
theorem fetch_instr {s t : State} {i : Instr} (h : fetch s = .instr i t) : s.resetIn = false ∧
    ((s.ph = .idle ∧ ∃ op rest, s.hostScript = .cmd op :: rest ∧ decode (.cmd op) = .ok i ∧
        t = emit (.cmd op) (setHostScript rest s)) ∨
      (s.ph = .iWr ∧ ∃ w, s.initTable[s.stepIx]? = some w ∧ i = .wr (entryReg w) (entryVal w) ∧ t = s) ∨
      (s.ph = .iSettle ∧ i = .settle ∧ t = s) ∨ (s.ph = .pPace ∧ i = .pace ∧ t = s) ∨
      (s.ph = .pArm ∧ i = .arm ∧ t = s) ∨ (s.ph = .pRead ∧ i = .rdrep ∧ t = s) ∨
      (s.ph = .pDecode ∧ i = .decode ∧ t = s) ∨ (s.ph = .pPublish ∧ i = .publish ∧ t = s)) := by
  unfold fetch at h
  split at h
  · cases h
  rename_i hr
  refine ⟨by simpa using hr, ?_⟩
  split at h
  · rename_i hp
    split at h
    · cases h
    · cases h
    · rename_i op rest hs
      unfold fetchSelector at h
      split at h
      · rename_i j hd
        cases h
        exact .inl ⟨hp, op, rest, hs, hd, rfl⟩
      · cases h
  · rename_i hp
    split at h
    · cases h
    · rename_i w hw
      cases h
      exact .inr (.inl ⟨hp, w, hw, rfl, rfl⟩)
  all_goals
    rename_i hp
    cases h
    simp [hp]

/-- The two ways a reset is fetched: the reset input, or the host's next move in `IDLE`. -/
theorem fetch_reset {s t : State} (h : fetch s = .reset t) :
    (s.resetIn = true ∧ t = s) ∨
      (s.resetIn = false ∧ s.ph = .idle ∧ ∃ rest, s.hostScript = .reset :: rest ∧ t = setHostScript rest s) := by
  unfold fetch at h
  split at h
  · rename_i hr
    cases h
    exact .inl ⟨hr, rfl⟩
  rename_i hr
  split at h
  · rename_i hp
    split at h
    · cases h
    · rename_i rest hs
      cases h
      exact .inr ⟨by simpa using hr, hp, rest, hs, rfl⟩
    · rename_i op rest hs
      unfold fetchSelector at h
      split at h <;> cases h
  · split at h
    · cases h
    · cases h
  all_goals cases h

/-- The machine waits only in `IDLE`, with no move of the host left (R40, R167). -/
theorem fetch_wait {s : State} (h : fetch s = .wait) : s.resetIn = false ∧ s.ph = .idle ∧ s.hostScript = [] := by
  unfold fetch at h
  split at h
  · cases h
  rename_i hr
  split at h
  · rename_i hp
    split at h
    · rename_i hs
      exact ⟨by simpa using hr, hp, hs⟩
    · cases h
    · unfold fetchSelector at h
      split at h <;> cases h
  · split at h <;> cases h
  all_goals cases h

/-- A reset that answers a next state constructs a session, in `IDLE` (R168). -/
theorem resetInput_next {s t : State} (h : resetInput s = .next t) : s.ph = .idle ∧ t = constructSession s := by
  unfold resetInput at h
  split at h
  · rename_i hp
    cases h
    exact ⟨hp, rfl⟩
  · cases h

/-- Everything a step that answers a next state can be: a wait in `IDLE`, a reset, or the run of the operation fetched. -/
theorem step_cases {s t : State} (h : step s = .next t) :
    (fetch s = .wait ∧ t = s) ∨ (∃ u, fetch s = .reset u ∧ u.ph = .idle ∧ t = constructSession u) ∨
      (∃ i u, fetch s = .instr i u ∧ exec i u = .next t) := by
  unfold step at h
  split at h
  · rename_i hf
    cases h
    exact .inl ⟨hf, rfl⟩
  · rename_i u hf
    obtain ⟨hp, rfl⟩ := resetInput_next h
    exact .inr (.inl ⟨u, hf, hp, rfl⟩)
  · rename_i i u hf
    exact .inr (.inr ⟨i, u, hf, h⟩)
  · cases h
  · cases h

end Sys2Proof.Machine
end

