-- ==== Sys2Proof/Laws/Exec.lean ====
section
/-! SUPPORT. What each operation can do when it answers a next state, said once (an inversion lemma per operation). -/

namespace Sys2Proof.Machine

/-- `INIT` (R160): rejected, done at once with the empty table, or started. -/
theorem execInit_next {s t : State} (h : execInit s = .next t) : s.ph = .idle ∧
    ((s.session ≠ .uninitialized ∧ t = emit (.rsp .rejected) s) ∨
      (s.session = .uninitialized ∧ s.initTable = [] ∧ t = emit (.rsp .ok) (setSession .ready (setStep 0 s))) ∨
      (s.session = .uninitialized ∧ s.initTable ≠ [] ∧ t = setPhase .iWr (setStep 0 s))) := by
  obtain ⟨hp, h⟩ := whenIdle_next h
  refine ⟨hp, ?_⟩
  split at h
  · rename_i hu
    dsimp only at h
    split at h
    · rename_i hn
      cases h
      exact .inr (.inl ⟨hu, by simpa [tableLen] using hn, rfl⟩)
    · rename_i hn
      cases h
      exact .inr (.inr ⟨hu, by simpa [tableLen] using hn, rfl⟩)
  · rename_i hu
    cases h
    exact .inl ⟨hu, rfl⟩

/-- `POLL` (R161): rejected or started. -/
theorem execPoll_next {s t : State} (h : execPoll s = .next t) : s.ph = .idle ∧
    ((s.session ≠ .ready ∧ t = emit (.rsp .rejected) s) ∨ (s.session = .ready ∧ t = setPhase .pPace s)) := by
  obtain ⟨hp, h⟩ := whenIdle_next h
  refine ⟨hp, ?_⟩
  split at h
  · rename_i hu
    cases h
    exact .inr ⟨hu, rfl⟩
  · rename_i hu
    cases h
    exact .inl ⟨hu, rfl⟩

/-- `TXBUF` after `WR` has written both bytes. -/
theorem txbuf_after_wr (buf : TxBuf) (reg val : Byte) : (buf.set 0 reg).set 1 val = #v[reg, val] := by
  ext i hi
  have : i = 0 ∨ i = 1 := by omega
  rcases this with rfl | rfl <;> simp

/-- What `WR` makes of an answer: a fault, or the settle delay next. -/
theorem wrAnswered_cases (a : SendAnswer) :
    (∃ k, a = .count k ∧ 2 ≤ k ∧ ∀ s, wrAnswered a s = setPhase .iSettle s) ∨
      (a = .err ∧ ∀ s, wrAnswered a s = raiseFault .transportError s) ∨
      (∃ k, a = .count k ∧ k < 2 ∧ ∀ s, wrAnswered a s = raiseFault .shortWrite s) := by
  cases h : wrFailure a with
  | none =>
    obtain ⟨k, rfl, hk⟩ := wrFailure_none h
    exact .inl ⟨k, rfl, hk, fun s => by simp [wrAnswered, h]⟩
  | some e =>
    rcases wrFailure_some h with ⟨rfl, rfl⟩ | ⟨k, rfl, hk, rfl⟩
    · exact .inr (.inl ⟨rfl, fun _ => rfl⟩)
    · exact .inr (.inr ⟨k, rfl, hk, fun s => by simp [wrAnswered, h]⟩)

/-- `WR` (R110): waiting for the answer, done, or failed in one of two ways. -/
theorem execWr_next {reg val : Byte} {s t : State} (h : execWr reg val s = .next t) : s.ph = .iWr ∧
    ((s.sendAnswers = [] ∧ t = setBusReq (some (.send [reg, val])) (setTx1 val (setTx0 reg s))) ∨
      (∃ k rest, 2 ≤ k ∧ s.sendAnswers = .count k :: rest ∧ t = setPhase .iSettle (emit (.tx [reg, val] (.count k))
        (setBusReq none (setSendAnswers rest (setTx1 val (setTx0 reg s)))))) ∨
      (∃ rest, s.sendAnswers = .err :: rest ∧ t = raiseFault .transportError (emit (.tx [reg, val] .err)
        (setBusReq none (setSendAnswers rest (setTx1 val (setTx0 reg s)))))) ∨
      (∃ k rest, k < 2 ∧ s.sendAnswers = .count k :: rest ∧ t = raiseFault .shortWrite (emit (.tx [reg, val] (.count k))
        (setBusReq none (setSendAnswers rest (setTx1 val (setTx0 reg s))))))) := by
  obtain ⟨hp, h⟩ := inPhase_next h
  have hb : w2Bytes (setTx1 val (setTx0 reg s)).txbuf = [reg, val] := by simp [w2Bytes]
  refine ⟨hp, ?_⟩
  dsimp only at h
  rw [hb] at h
  split at h
  · rename_i u hu
    obtain ⟨hs, rfl⟩ := busSend_waiting hu
    cases h
    exact .inl ⟨hs, rfl⟩
  · rename_i a u hu
    obtain ⟨rest, hs, rfl⟩ := busSend_answered hu
    simp only [Host.Outcome.next.injEq] at h
    subst h
    right
    rcases wrAnswered_cases a with ⟨k, rfl, hk, he⟩ | ⟨rfl, he⟩ | ⟨k, rfl, hk, he⟩
    · exact .inl ⟨k, rest, hk, hs, he _⟩
    · exact .inr (.inl ⟨rest, hs, he _⟩)
    · exact .inr (.inr ⟨k, rest, hk, hs, he _⟩)

/-- `SETTLE` (R111): the next step, or the end of the `INIT`. -/
theorem execSettle_next {s t : State} (h : execSettle s = .next t) : s.ph = .iSettle ∧
    ((s.stepIx + 1 = s.initTable.length ∧ t = initDone (setStep (s.stepIx + 1) (emit (.delay 1000) s))) ∨
      (s.stepIx + 1 ≠ s.initTable.length ∧ t = setPhase .iWr (setStep (s.stepIx + 1) (emit (.delay 1000) s)))) := by
  obtain ⟨hp, h⟩ := inPhase_next h
  refine ⟨hp, ?_⟩
  dsimp only at h
  split at h
  · rename_i hl
    cases h
    exact .inl ⟨by simpa [lastStepDone, tableLen] using hl, rfl⟩
  · rename_i hl
    cases h
    exact .inr ⟨by simpa [lastStepDone, tableLen] using hl, rfl⟩

/-- `PACE` (R130): one delay within the bounds. -/
theorem execPace_next {s t : State} (h : execPace s = .next t) : s.ph = .pPace ∧
    ∃ d, 10000 ≤ d ∧ d ≤ 20000 ∧ t = setPhase .pArm (emit (.delay d) (useFree s)) := by
  obtain ⟨hp, h⟩ := inPhase_next h
  cases h
  have hb := drawValue_bounds (lo := tPaceMin) (hi := tPaceMax) (by decide) s
  exact ⟨hp, _, hb.1, hb.2, rfl⟩

/-- The delay of `PACE` is the value of the instance's own source at its counter, brought between the bounds (R208, R211). -/
theorem execPace_delay {s t : State} (h : execPace s = .next t) :
    t = setPhase .pArm (emit (.delay (10000 + Config.draw s.freeSource s.freeIx % 10001)) (useFree s)) := by
  obtain ⟨_, h⟩ := inPhase_next h
  cases h
  rfl

/-- What `ARM` makes of an answer: `ArmFailure`, or the read next. -/
theorem armAnswered_cases (a : SendAnswer) :
    (∃ k, a = .count k ∧ 1 ≤ k ∧ ∀ s, armAnswered a s = setPhase .pRead s) ∨
      ((a = .err ∨ a = .count 0) ∧ ∀ s, armAnswered a s = raiseFault .armFailure s) := by
  cases h : armFailure a with
  | none =>
    obtain ⟨k, rfl, hk⟩ := armFailure_none h
    exact .inl ⟨k, rfl, hk, fun s => by simp [armAnswered, h]⟩
  | some e =>
    obtain ⟨rfl, ha⟩ := armFailure_some h
    exact .inr ⟨ha, fun s => by simp [armAnswered, h]⟩

/-- `ARM` (R131): waiting for the answer, done, or failed. -/
theorem execArm_next {s t : State} (h : execArm s = .next t) : s.ph = .pArm ∧
    ((s.sendAnswers = [] ∧ t = setBusReq (some (.send [0x00#8])) (setTx0 0x00#8 s)) ∨
      (∃ k rest, 1 ≤ k ∧ s.sendAnswers = .count k :: rest ∧ t = setPhase .pRead (emit (.tx [0x00#8] (.count k))
        (setBusReq none (setSendAnswers rest (setTx0 0x00#8 s))))) ∨
      (∃ a rest, (a = .err ∨ a = .count 0) ∧ s.sendAnswers = a :: rest ∧ t = raiseFault .armFailure
        (emit (.tx [0x00#8] a) (setBusReq none (setSendAnswers rest (setTx0 0x00#8 s)))))) := by
  obtain ⟨hp, h⟩ := inPhase_next h
  have hb : w1Bytes (setTx0 armByte s).txbuf = [0x00#8] := by simp [w1Bytes, armByte]
  refine ⟨hp, ?_⟩
  dsimp only at h
  rw [hb] at h
  split at h
  · rename_i u hu
    obtain ⟨hs, rfl⟩ := busSend_waiting hu
    cases h
    exact .inl ⟨hs, rfl⟩
  · rename_i a u hu
    obtain ⟨rest, hs, rfl⟩ := busSend_answered hu
    simp only [Host.Outcome.next.injEq] at h
    subst h
    right
    rcases armAnswered_cases a with ⟨k, rfl, hk, he⟩ | ⟨ha, he⟩
    · exact .inl ⟨k, rest, hk, hs, he _⟩
    · exact .inr ⟨a, rest, ha, hs, he _⟩

/-- What `RDREP` makes of an answer: a report of six bytes, or `ReadFailure`. -/
theorem rdrepAnswered_cases (a : RecvAnswer) :
    (∃ d, ∃ h : d.length = reportLen, a = .data d ∧
        ∀ s, rdrepAnswered a s = setPhase .pDecode (setRx (reportOf d h) s)) ∨
      ((a = .err ∨ ∃ d, a = .data d ∧ d.length ≠ 6) ∧ ∀ s, rdrepAnswered a s = raiseFault .readFailure s) := by
  cases a with
  | err => exact .inr ⟨.inl rfl, fun _ => rfl⟩
  | data d =>
    by_cases h : d.length = reportLen
    · exact .inl ⟨d, h, rfl, fun s => by simp [rdrepAnswered, h]⟩
    · exact .inr ⟨.inr ⟨d, rfl, h⟩, fun s => by simp [rdrepAnswered, h]⟩

/-- `RDREP` (R132): waiting for the answer, done, or failed. -/
theorem execRdrep_next {s t : State} (h : execRdrep s = .next t) : s.ph = .pRead ∧
    ((s.recvAnswers = [] ∧ t = setBusReq (some (.recv 6)) s) ∨
      (∃ r rest, s.recvAnswers = .data (Vector.toList r) :: rest ∧ t = setPhase .pDecode (setRx r
        (emit (.rx 6 (.data r.toList)) (setBusReq none (setRecvAnswers rest s))))) ∨
      (∃ a rest, (a = .err ∨ ∃ d, a = .data d ∧ d.length ≠ 6) ∧ s.recvAnswers = a :: rest ∧
        t = raiseFault .readFailure (emit (.rx 6 a) (setBusReq none (setRecvAnswers rest s))))) := by
  obtain ⟨hp, h⟩ := inPhase_next h
  refine ⟨hp, ?_⟩
  split at h
  · rename_i u hu
    obtain ⟨hs, rfl⟩ := busRecv_waiting hu
    cases h
    exact .inl ⟨hs, rfl⟩
  · rename_i a u hu
    obtain ⟨rest, hs, rfl⟩ := busRecv_answered hu
    simp only [Host.Outcome.next.injEq] at h
    subst h
    right
    rcases rdrepAnswered_cases a with ⟨d, hd, rfl, he⟩ | ⟨ha, he⟩
    · exact .inl ⟨reportOf d hd, rest, hs, he _⟩
    · exact .inr ⟨a, rest, ha, hs, he _⟩

/-- `DECODE` (R150): the report's levels. -/
theorem execDecode_next {s t : State} (h : execDecode s = .next t) :
    s.ph = .pDecode ∧ t = setPhase .pPublish (setBtn (decodeReport s.rxbuf) s) := by
  obtain ⟨hp, h⟩ := inPhase_next h
  cases h
  exact ⟨hp, rfl⟩

/-- `PUBLISH` (R162): three sink messages and the response. -/
theorem execPublish_next {s t : State} (h : execPublish s = .next t) : s.ph = .pPublish ∧
    t = emit (.rsp (.okButtons s.btn.zPressed s.btn.cPressed)) (setPhase .idle (emit (.sink .sync)
      (emit (.sink (.key .c s.btn.cPressed)) (emit (.sink (.key .z s.btn.zPressed)) s)))) := by
  obtain ⟨hp, h⟩ := inPhase_next h
  cases h
  exact ⟨hp, rfl⟩

/-- The levels of a report, read off bits 0 and 1 of its byte 5 (R152). -/
theorem decodeReport_eq (r : Report) : decodeReport r = ⟨!r[5].getLsbD 0, !r[5].getLsbD 1⟩ := by
  simp only [decodeReport, zPressedOf_eq, cPressedOf_eq]

end Sys2Proof.Machine
end

