-- ==== Sys2Proof/Laws/PerInstr.lean ====
section
/-! SUPPORT. The per-instruction family `Encoding`: every operation is well formed, its bytes fill the whole bytes the opcode table gives
its row, and its selector is one that selects an operation by itself. -/

namespace Sys2Proof.Laws.Encoding

/-- What every operation's encoding is like (R82, R87, R91, R96). -/
def Statement (i : Instr) : Prop :=
  i.wf = true ∧ (encodeBytes i).length * 8 = tableBits i ∧ (encode i).wf = true

theorem init : Statement .init := ⟨rfl, rfl, rfl⟩
theorem poll : Statement .poll := ⟨rfl, rfl, rfl⟩
theorem wr (reg val : Byte) : Statement (.wr reg val) := ⟨rfl, rfl, rfl⟩
theorem settle : Statement .settle := ⟨rfl, rfl, rfl⟩
theorem pace : Statement .pace := ⟨rfl, rfl, rfl⟩
theorem arm : Statement .arm := ⟨rfl, rfl, rfl⟩
theorem rdrep : Statement .rdrep := ⟨rfl, rfl, rfl⟩
theorem decode : Statement .decode := ⟨rfl, rfl, rfl⟩
theorem publish : Statement .publish := ⟨rfl, rfl, rfl⟩

end Sys2Proof.Laws.Encoding
end

