-- ==== Sys2Proof/Laws/Run.lean ====
section
/-! SUPPORT. Runs of several steps: one more step, runs in sequence, and the host's own run of the machine. -/

namespace Sys2Proof.Safety

open Sys2Proof.Machine

@[simp] theorem run_zero (s : State) : run 0 s = .next s := rfl

/-- One step, then the rest. -/
theorem run_succ {s t : State} (n : Nat) (h : step s = .next t) : run (n + 1) s = run n t := by
  simp [run, h]

/-- A run followed by a run. -/
theorem run_add {m : Nat} {s t : State} (n : Nat) (h : run m s = .next t) : run (m + n) s = run n t := by
  induction m generalizing s with
  | zero =>
    cases h
    rw [Nat.zero_add]
  | succ m ih =>
    rw [Nat.add_right_comm]
    cases hs : step s with
    | next u =>
      rw [run_succ _ hs] at h ⊢
      exact ih h
    | fault f => simp [run, hs] at h
    | refused r => simp [run, hs] at h

/-- One step of any machine's run. -/
theorem hostRun_succ (M : Host.Core) (n : Nat) (s : M.State) :
    (∀ t, M.step s = .next t → M.run (n + 1) s = M.run n t) ∧
      (∀ f, M.step s = .fault f → M.run (n + 1) s = .fault f) ∧ ∀ r, M.step s = .refused r → M.run (n + 1) s = .refused r := by
  refine ⟨?_, ?_, ?_⟩ <;> intro x h <;> simp [Host.Core.run, h]

/-- The host's run of the machine is this one. -/
theorem core_run_eq (n : Nat) (s : State) : Host.Core.run Sys2Proof.core n s = run n s := by
  induction n generalizing s with
  | zero => rfl
  | succ n ih =>
    obtain ⟨hn, hf, hr⟩ := hostRun_succ Sys2Proof.core n s
    cases hs : step s with
    | next t => exact ((hn t hs).trans (ih t)).trans (run_succ n hs).symm
    | fault f => exact (hf f hs).trans (show _ = run (n + 1) s by simp only [run, hs]; rfl)
    | refused r => exact (hr r hs).trans (show _ = run (n + 1) s by simp only [run, hs]; rfl)

end Sys2Proof.Safety
end

