-- ==== Sys2Proof/Laws/Step.lean ====
section
/-! SUPPORT. Everything a step that answers a next state can be, one constructor per path, each with the next state written out: the
one inversion that statements about every step are proved from. -/

namespace Sys2Proof.Machine

/-- The state after the transport answered a send. -/
def sent (bytes : List Byte) (a : SendAnswer) (rest : List SendAnswer) (s : State) : State :=
  emit (.tx bytes a) (setBusReq none (setSendAnswers rest s))

/-- The state after the transport answered a receive. -/
def received (a : RecvAnswer) (rest : List RecvAnswer) (s : State) : State :=
  emit (.rx 6 a) (setBusReq none (setRecvAnswers rest s))

/-- The state after the host's command has been taken. -/
def taken (op : BitVec 1) (rest : List HostMove) (s : State) : State := emit (.cmd op) (setHostScript rest s)

/-- Both bytes of `TXBUF` written from an entry. -/
def loaded (w : Entry) (s : State) : State := setTx1 (entryVal w) (setTx0 (entryReg w) s)

/-- The paths of a step from `s` to `t`. -/
inductive StepTo (s : State) : State → Prop
  | wait : s.resetIn = false → s.ph = .idle → s.hostScript = [] → StepTo s s
  | resetIn : s.resetIn = true → s.ph = .idle → StepTo s (constructSession s)
  | reset rest : s.resetIn = false → s.ph = .idle → s.hostScript = .reset :: rest →
      StepTo s (constructSession (setHostScript rest s))
  | initRejected rest : s.resetIn = false → s.ph = .idle → s.hostScript = .cmd 0#1 :: rest →
      s.session ≠ .uninitialized → StepTo s (emit (.rsp .rejected) (taken 0#1 rest s))
  | initEmpty rest : s.resetIn = false → s.ph = .idle → s.hostScript = .cmd 0#1 :: rest →
      s.session = .uninitialized → s.initTable = [] →
      StepTo s (emit (.rsp .ok) (setSession .ready (setStep 0 (taken 0#1 rest s))))
  | initStarted rest : s.resetIn = false → s.ph = .idle → s.hostScript = .cmd 0#1 :: rest →
      s.session = .uninitialized → s.initTable ≠ [] →
      StepTo s (setPhase .iWr (setStep 0 (taken 0#1 rest s)))
  | pollRejected rest : s.resetIn = false → s.ph = .idle → s.hostScript = .cmd 1#1 :: rest →
      s.session ≠ .ready → StepTo s (emit (.rsp .rejected) (taken 1#1 rest s))
  | pollStarted rest : s.resetIn = false → s.ph = .idle → s.hostScript = .cmd 1#1 :: rest →
      s.session = .ready → StepTo s (setPhase .pPace (taken 1#1 rest s))
  | wrWaits w : s.ph = .iWr → s.initTable[s.stepIx]? = some w → s.sendAnswers = [] →
      StepTo s (setBusReq (some (.send [entryReg w, entryVal w])) (loaded w s))
  | wrDone w k rest : s.ph = .iWr → s.initTable[s.stepIx]? = some w → s.sendAnswers = .count k :: rest → 2 ≤ k →
      StepTo s (setPhase .iSettle (sent [entryReg w, entryVal w] (.count k) rest (loaded w s)))
  | wrShort w k rest : s.ph = .iWr → s.initTable[s.stepIx]? = some w → s.sendAnswers = .count k :: rest → k < 2 →
      StepTo s (raiseFault .shortWrite (sent [entryReg w, entryVal w] (.count k) rest (loaded w s)))
  | wrErr w rest : s.ph = .iWr → s.initTable[s.stepIx]? = some w → s.sendAnswers = .err :: rest →
      StepTo s (raiseFault .transportError (sent [entryReg w, entryVal w] .err rest (loaded w s)))
  | settleLast : s.ph = .iSettle → s.stepIx + 1 = s.initTable.length →
      StepTo s (initDone (setStep (s.stepIx + 1) (emit (.delay 1000) s)))
  | settleNext : s.ph = .iSettle → s.stepIx + 1 ≠ s.initTable.length →
      StepTo s (setPhase .iWr (setStep (s.stepIx + 1) (emit (.delay 1000) s)))
  | pace d : s.ph = .pPace → 10000 ≤ d → d ≤ 20000 → StepTo s (setPhase .pArm (emit (.delay d) (useFree s)))
  | armWaits : s.ph = .pArm → s.sendAnswers = [] → StepTo s (setBusReq (some (.send [0x00#8])) (setTx0 0x00#8 s))
  | armDone k rest : s.ph = .pArm → s.sendAnswers = .count k :: rest → 1 ≤ k →
      StepTo s (setPhase .pRead (sent [0x00#8] (.count k) rest (setTx0 0x00#8 s)))
  | armFails a rest : s.ph = .pArm → s.sendAnswers = a :: rest → a = .err ∨ a = .count 0 →
      StepTo s (raiseFault .armFailure (sent [0x00#8] a rest (setTx0 0x00#8 s)))
  | readWaits : s.ph = .pRead → s.recvAnswers = [] → StepTo s (setBusReq (some (.recv 6)) s)
  | readDone r rest : s.ph = .pRead → s.recvAnswers = .data (Vector.toList r) :: rest →
      StepTo s (setPhase .pDecode (setRx r (received (.data r.toList) rest s)))
  | readFails a rest : s.ph = .pRead → s.recvAnswers = a :: rest → (a = .err ∨ ∃ d, a = .data d ∧ d.length ≠ 6) →
      StepTo s (raiseFault .readFailure (received a rest s))
  | decode : s.ph = .pDecode → StepTo s (setPhase .pPublish (setBtn (decodeReport s.rxbuf) s))
  | publish : s.ph = .pPublish →
      StepTo s (emit (.rsp (.okButtons s.btn.zPressed s.btn.cPressed)) (setPhase .idle (emit (.sink .sync)
        (emit (.sink (.key .c s.btn.cPressed)) (emit (.sink (.key .z s.btn.zPressed)) s)))))

/-- Every step that answers a next state is one of the paths. -/
theorem step_to {s t : State} (h : step s = .next t) : StepTo s t := by
  rcases step_cases h with ⟨hf, rfl⟩ | ⟨u, hu, hp, rfl⟩ | ⟨i, u, hu, he⟩
  · obtain ⟨hr, hp, hs⟩ := fetch_wait hf
    exact .wait hr hp hs
  · rcases fetch_reset hu with ⟨hr, rfl⟩ | ⟨hr, hi, rest, hs, rfl⟩
    · exact .resetIn hr hp
    · exact .reset rest hr hi hs
  · obtain ⟨hr, hc⟩ := fetch_instr hu
    rcases hc with ⟨hp, op, rest, hs, hd, rfl⟩ | ⟨_, w, hw, rfl, rfl⟩ | ⟨_, rfl, rfl⟩ | ⟨_, rfl, rfl⟩ | ⟨_, rfl, rfl⟩ |
      ⟨_, rfl, rfl⟩ | ⟨_, rfl, rfl⟩ | ⟨_, rfl, rfl⟩
    · have hop : op = 0#1 ∨ op = 1#1 := by
        clear * -
        revert op
        decide
      rcases hop with rfl | rfl
      · cases hd
        obtain ⟨_, (⟨h1, rfl⟩ | ⟨h1, h2, rfl⟩ | ⟨h1, h2, rfl⟩)⟩ := execInit_next he
        · exact .initRejected rest hr hp hs h1
        · exact .initEmpty rest hr hp hs h1 h2
        · exact .initStarted rest hr hp hs h1 h2
      · cases hd
        obtain ⟨_, (⟨h1, rfl⟩ | ⟨h1, rfl⟩)⟩ := execPoll_next he
        · exact .pollRejected rest hr hp hs h1
        · exact .pollStarted rest hr hp hs h1
    · obtain ⟨hp, (⟨hs, rfl⟩ | ⟨k, rest, hk, hs, rfl⟩ | ⟨rest, hs, rfl⟩ | ⟨k, rest, hk, hs, rfl⟩)⟩ := execWr_next he
      · exact .wrWaits w hp hw hs
      · exact .wrDone w k rest hp hw hs hk
      · exact .wrErr w rest hp hw hs
      · exact .wrShort w k rest hp hw hs hk
    · obtain ⟨hp, (⟨h1, rfl⟩ | ⟨h1, rfl⟩)⟩ := execSettle_next he
      · exact .settleLast hp h1
      · exact .settleNext hp h1
    · obtain ⟨hp, d, h1, h2, rfl⟩ := execPace_next he
      exact .pace d hp h1 h2
    · obtain ⟨hp, (⟨hs, rfl⟩ | ⟨k, rest, hk, hs, rfl⟩ | ⟨a, rest, ha, hs, rfl⟩)⟩ := execArm_next he
      · exact .armWaits hp hs
      · exact .armDone k rest hp hs hk
      · exact .armFails a rest hp hs ha
    · obtain ⟨hp, (⟨hs, rfl⟩ | ⟨r, rest, hs, rfl⟩ | ⟨a, rest, ha, hs, rfl⟩)⟩ := execRdrep_next he
      · exact .readWaits hp hs
      · exact .readDone r rest hp hs
      · exact .readFails a rest hp hs ha
    · obtain ⟨hp, rfl⟩ := execDecode_next he
      exact .decode hp
    · obtain ⟨hp, rfl⟩ := execPublish_next he
      exact .publish hp

end Sys2Proof.Machine
end

