-- ==== Sys2Proof/Tests/Slice0.lean ====
section
/-! SUPPORT. Tests of the model on fixed values. The expected results are the spec's: 30_encoding.md for the words, 95_test_vectors.md for the
operations (the section is named at each test). The `test_witness_` theorems show, for each statement with hypotheses, a concrete state
and operands that meet them all. -/

namespace Sys2Proof.Tests

open Sys2Proof.Machine Sys2Proof.Safety

/-! ### Well-formedness: each check refuses an ill-formed term -/

theorem test_wf_send_of_no_byte : (BusRequest.send []).wf = false := by decide
theorem test_wf_send_of_three_bytes : (BusRequest.send [0x00#8, 0x01#8, 0x02#8]).wf = false := by decide
theorem test_wf_sends : (BusRequest.send [0x00#8]).wf = true ∧ (BusRequest.send [0xF0#8, 0x55#8]).wf = true := by decide
theorem test_wf_recv_of_five : (BusRequest.recv 5).wf = false ∧ (BusRequest.recv 6).wf = true := by decide
theorem test_wf_idle_code : (Selector.phase 0b000#3).wf = false := by decide
theorem test_wf_write_code_alone : (Selector.phase 0b001#3).wf = false := by decide

/-! ### Decoding, each word written out from R80, R82 or R87 -/

-- R80: op 0 and op 1.
theorem test_decode_init : decode (.cmd 0b0#1) = .ok .init ∧ decodeBytes [0x00#8] = .ok .init := by decide
theorem test_decode_poll : decode (.cmd 0b1#1) = .ok .poll ∧ decodeBytes [0x01#8] = .ok .poll := by decide
-- R82: reg in bits 15:8, val in bits 7:0; 95_test_vectors.md section 3.1.
theorem test_decode_wr : decode (.entry 0b1111000001010101#16) = .ok (.wr 0xF0#8 0x55#8) := by decide
theorem test_decode_wr_bytes : decodeBytes [0x80#8, 0x01#8] = .ok (.wr 0x01#8 0x80#8) := by decide
-- R87: the codes of PH.
theorem test_decode_settle : decode (.phase 0b010#3) = .ok .settle ∧ decodeBytes [0x02#8] = .ok .settle := by decide
theorem test_decode_pace : decode (.phase 0b011#3) = .ok .pace ∧ decodeBytes [0x03#8] = .ok .pace := by decide
theorem test_decode_arm : decode (.phase 0b100#3) = .ok .arm ∧ decodeBytes [0x04#8] = .ok .arm := by decide
theorem test_decode_rdrep : decode (.phase 0b101#3) = .ok .rdrep ∧ decodeBytes [0x05#8] = .ok .rdrep := by decide
theorem test_decode_decode : decode (.phase 0b110#3) = .ok .decode ∧ decodeBytes [0x06#8] = .ok .decode := by decide
theorem test_decode_publish : decode (.phase 0b111#3) = .ok .publish ∧ decodeBytes [0x07#8] = .ok .publish := by decide
-- Refused by name.
theorem test_decode_refuses : decode (.phase 0b000#3) = .error .idlePhase ∧ decode (.phase 0b001#3) = .error .entryNeeded ∧
    decodeBytes [0x08#8] = .error .reservedBits ∧ decodeBytes [] = .error .badLength ∧
    decodeBytes [0x01#8, 0x02#8, 0x03#8] = .error .badLength := by decide
theorem test_encode_words : encodeBytes (.wr 0xFB#8 0x00#8) = [0x00#8, 0xFB#8] ∧ encodeBytes .publish = [0x07#8] := by decide

/-! ### One step on a small state -/

/-- A ready session in `IDLE` with the table of the two-step handshake, and buffers that hold something. -/
def base : State where
  session := .ready
  reason := none
  stepIx := 0
  ph := .idle
  txbuf := #v[0xA5#8, 0x5A#8]
  rxbuf := #v[0x11#8, 0x22#8, 0x33#8, 0x44#8, 0x55#8, 0x66#8]
  btn := ⟨false, true⟩
  busReq := none
  initTable := [0xF055#16, 0xFB00#16]
  hostScript := []
  resetIn := false
  sendAnswers := []
  recvAnswers := []
  freeSource := 7
  freeIx := 1
  trace := []

/-- `base` before its `INIT`. -/
def fresh : State := { base with session := .uninitialized }

/-- `base` in an `INIT`, at the write of step `n`. -/
def writing (n : Nat) (answers : List SendAnswer) : State := { fresh with ph := .iWr, stepIx := n, sendAnswers := answers }

/-- `base` in an `INIT`, at the settle delay of step `n`. -/
def settling (n : Nat) : State := { fresh with ph := .iSettle, stepIx := n }

/-- `base` at the arming write. -/
def arming (answers : List SendAnswer) : State := { base with ph := .pArm, sendAnswers := answers }

/-- `base` at the read. -/
def reading (answers : List RecvAnswer) : State := { base with ph := .pRead, recvAnswers := answers }

/-- `base` at the decode, with this byte 5. -/
def decoding (b : Byte) : State := { base with ph := .pDecode, rxbuf := #v[0xFF#8, 0xFF#8, 0xFF#8, 0xFF#8, 0xFF#8, b] }

/-- `base` at the publishing of these levels. -/
def publishing (z c : Bool) : State := { base with ph := .pPublish, btn := ⟨z, c⟩ }

/-- `base` after a fault. -/
def broken (reason : ErrKind) : State := { base with session := .faulted, reason := some reason }

/-- What a field of the next state is. -/
def seen {α : Type} (f : State → α) : Host.Outcome State Fault Refusal → Option α
  | .next t => some (f t)
  | .fault _ => none
  | .refused _ => none

-- Section 3.10.
theorem test_init_starts : seen (fun t => (t.ph, t.stepIx, t.session, t.trace)) (exec .init fresh) =
    some (.iWr, 0, .uninitialized, []) := by decide
theorem test_init_rejected_when_ready : seen (fun t => (t.ph, t.session, t.trace)) (exec .init base) =
    some (.idle, .ready, [.rsp .rejected]) := by decide
theorem test_poll_starts : seen (fun t => (t.ph, t.trace)) (exec .poll base) = some (.pPace, []) := by decide
theorem test_poll_rejected_after_fault : seen (fun t => (t.ph, t.reason, t.trace)) (exec .poll (broken .readFailure)) =
    some (.idle, some .readFailure, [.rsp .rejected]) := by decide
-- Section 3.2: Count(2) goes on; Count(1) is ShortWrite with STEP kept.
theorem test_wr_accepted : seen (fun t => (t.ph, t.stepIx, t.txbuf, t.trace)) (exec (.wr 0xFB#8 0x00#8) (writing 1 [.count 2])) =
    some (.iSettle, 1, #v[0xFB#8, 0x00#8], [.tx [0xFB#8, 0x00#8] (.count 2)]) := by decide
theorem test_wr_short : seen (fun t => (t.ph, t.stepIx, t.session, t.reason, t.trace))
    (step (writing 1 [.count 1])) = some (.idle, 1, .faulted, some .shortWrite,
      [.tx [0xFB#8, 0x00#8] (.count 1), .rsp (.err .shortWrite)]) := by decide
-- Section 3.3, rows (0, 2) and (1, 2).
theorem test_settle_next : seen (fun t => (t.ph, t.stepIx, t.session, t.trace)) (exec .settle (settling 0)) =
    some (.iWr, 1, .uninitialized, [.delay 1000]) := by decide
theorem test_settle_last : seen (fun t => (t.ph, t.stepIx, t.session, t.trace)) (exec .settle (settling 1)) =
    some (.idle, 2, .ready, [.delay 1000, .rsp .ok]) := by decide
-- Section 3.5: the delay is left open; the phase is not.
theorem test_pace : seen (fun t => (t.ph, t.freeIx)) (exec .pace { base with ph := .pPace }) = some (.pArm, 2) := by decide
-- Section 3.6: Count(1) goes on; Err is ArmFailure.
theorem test_arm_accepted : seen (fun t => (t.ph, t.txbuf, t.trace)) (exec .arm (arming [.count 1])) =
    some (.pRead, #v[0x00#8, 0x5A#8], [.tx [0x00#8] (.count 1)]) := by decide
theorem test_arm_error : seen (fun t => (t.ph, t.session, t.reason, t.trace)) (exec .arm (arming [.err])) =
    some (.idle, .faulted, some .armFailure, [.tx [0x00#8] .err, .rsp (.err .armFailure)]) := by decide
-- Section 3.7: six bytes go on in order; five are discarded.
theorem test_rdrep_six : seen (fun t => (t.ph, t.rxbuf))
    (exec .rdrep (reading [.data [0x01#8, 0x02#8, 0x03#8, 0x04#8, 0x05#8, 0xFE#8]])) =
    some (.pDecode, #v[0x01#8, 0x02#8, 0x03#8, 0x04#8, 0x05#8, 0xFE#8]) := by decide
theorem test_rdrep_five : seen (fun t => (t.ph, t.session, t.reason, t.rxbuf))
    (exec .rdrep (reading [.data [0x00#8, 0x00#8, 0x00#8, 0x00#8, 0x00#8]])) =
    some (.idle, .faulted, some .readFailure, #v[0x11#8, 0x22#8, 0x33#8, 0x44#8, 0x55#8, 0x66#8]) := by decide
-- Section 3.8: 0xFD gives (false, true), 0xAA gives (true, false).
theorem test_decode_fd : seen (fun t => (t.ph, t.btn)) (exec .decode (decoding 0xFD#8)) = some (.pPublish, ⟨false, true⟩) := by decide
theorem test_decode_aa : seen (fun t => (t.ph, t.btn)) (exec .decode (decoding 0xAA#8)) = some (.pPublish, ⟨true, false⟩) := by decide
-- Section 3.9, row (false, true).
theorem test_publish : seen (fun t => (t.ph, t.trace)) (exec .publish (publishing false true)) =
    some (.idle, [.sink (.key .z false), .sink (.key .c true), .sink .sync, .rsp (.okButtons false true)]) := by decide
theorem test_publish_codes : [SinkMsg.key .z false, .key .c true, .sync].map sinkCode = [0b000#3, 0b011#3, 0b100#3] ∧
    responseCode (.okButtons false true) = 0b00010#5 := by decide
-- Section 3.10, the last row.
theorem test_reset_after_fault : seen (fun t => (t.session, t.reason, t.stepIx, t.ph))
    (step { broken .armFailure with hostScript := [.reset] }) = some (.uninitialized, none, 0, .idle) := by decide
-- R97: presenting a program.
theorem test_load_program : (loadProgram [.tableB] [.cmd 0#1] [.count 2] [] base).initTable = [0x52F0#16, 0x5255#16] := by decide

/-! ### Placing a word and stepping -/

theorem test_placed_words_run : seen (fun t => (t.ph, t.busReq)) (step (base.withFetchWord 16 0xF055)) =
    some (.iWr, some (.send [0xF0#8, 0x55#8])) ∧ seen (fun t => t.ph) (step (State.reset.withFetchWord 8 3)) = some .pArm := by decide

/-! ### Witnesses: states and operands that meet the hypotheses of each statement -/

theorem test_witness_DecodeOfEncode : (Instr.wr 0xF0#8 0x55#8).wf = true ∧ Instr.publish.wf = true := by decide
theorem test_witness_EncodeOfDecode : decode (.cmd 0#1) = .ok .init ∧ decode (.entry 0xFFFF#16) = .ok (.wr 0xFF#8 0xFF#8) ∧
    decode (.phase 0b111#3) = .ok .publish := by decide
-- By the input, from a fault; by the script, from `Ready`; and both at once.
theorem test_witness_ResetFromIdle :
    ({ broken .shortWrite with resetIn := true } : State).ph = .idle ∧
    (({ base with hostScript := [.reset, .cmd 0#1] } : State).ph = .idle ∧
      ∃ rest, ({ base with hostScript := [.reset, .cmd 0#1] } : State).hostScript = .reset :: rest) ∧
    (seen (fun t => t.hostScript) (step { base with resetIn := true, hostScript := [.reset] }) = some [.reset]) :=
  ⟨rfl, ⟨rfl, _, rfl⟩, by decide⟩
theorem test_witness_ResetDuringCommandRefused :
    ({ settling 0 with resetIn := true } : State).resetIn = true ∧ ({ settling 0 with resetIn := true } : State).ph ≠ .idle := by
  decide
theorem test_witness_IdleWaitsForTheHost : base.resetIn = false ∧ base.ph = .idle ∧ base.hostScript = [] := by decide
theorem test_witness_StepRunsDecoded :
    (({ base with hostScript := [.cmd 1#1] } : State).ph = .idle ∧ decode (.cmd 1#1) = .ok .poll ∧
      ({ base with hostScript := [.cmd 1#1] } : State).hostScript = [.cmd 1#1]) ∧
    ((writing 1 []).resetIn = false ∧ (writing 1 []).ph = .iWr ∧ (writing 1 []).initTable[(writing 1 []).stepIx]? = some 0xFB00#16 ∧
      decode (.entry 0xFB00#16) = .ok (.wr 0xFB#8 0x00#8)) ∧
    ((settling 0).ph ≠ .idle ∧ (settling 0).ph ≠ .iWr ∧ decode (.phase (settling 0).ph.code) = .ok .settle) ∧
    decode (.phase (publishing true true).ph.code) = .ok .publish := by decide
theorem test_witness_PlacedWordRuns : decodeTableWord 8 0 = some .init ∧ decodeTableWord 8 1 = some .poll ∧
    decodeTableWord 8 2 = some .settle ∧ decodeTableWord 8 7 = some .publish ∧
    decodeTableWord 16 0 = some (.wr 0x00#8 0x00#8) ∧ decodeTableWord 16 0xFFFF = some (.wr 0xFF#8 0xFF#8) := by decide
-- `STEP` just past the table, and the empty table.
theorem test_witness_AbsentTableEntryFaults :
    ((writing 2 []).resetIn = false ∧ (writing 2 []).ph = .iWr ∧ (writing 2 []).initTable.length ≤ (writing 2 []).stepIx) ∧
    ({ writing 0 [] with initTable := [] } : State).initTable.length ≤ ({ writing 0 [] with initTable := [] } : State).stepIx := by
  decide
theorem test_witness_OperationsNeedTheirPhase : (settling 0).ph ≠ .idle ∧ base.ph ≠ .iWr ∧ base.ph ≠ .iSettle ∧ base.ph ≠ .pPace ∧
    base.ph ≠ .pArm ∧ base.ph ≠ .pRead ∧ base.ph ≠ .pDecode ∧ base.ph ≠ .pPublish := by decide
theorem test_witness_InitCommandResult :
    (fresh.ph = .idle ∧ fresh.session = .uninitialized ∧ fresh.initTable ≠ []) ∧
    (({ fresh with initTable := [] } : State).ph = .idle ∧ ({ fresh with initTable := [] } : State).session = .uninitialized) ∧
    (base.ph = .idle ∧ base.session ≠ .uninitialized) ∧
    ((broken .shortWrite).ph = .idle ∧ (broken .shortWrite).session ≠ .uninitialized) := by decide
theorem test_witness_PollCommandResult : (base.ph = .idle ∧ base.session = .ready) ∧ (fresh.ph = .idle ∧ fresh.session ≠ .ready) ∧
    (broken .shortWrite).session ≠ .ready := by decide
theorem test_witness_PollInFaultedRejected :
    (broken .readFailure).ph = .idle ∧ (broken .readFailure).session = .faulted := by decide
-- Each answer at its boundary: Err, Count 0, Count 1, Count 2, Count 3; and the last entry of the table.
theorem test_witness_WrResult :
    ((writing 0 [.err]).ph = .iWr ∧ (writing 0 [.err]).sendAnswers = [.err]) ∧
    ((writing 0 [.count 0]).sendAnswers = [.count 0] ∧ (0 : Nat) < 2) ∧
    ((writing 0 [.count 1]).sendAnswers = [.count 1] ∧ (1 : Nat) < 2) ∧
    ((writing 0 [.count 2]).sendAnswers = [.count 2] ∧ 2 ≤ 2) ∧
    ((writing 0 [.count 3]).sendAnswers = [.count 3] ∧ 2 ≤ 3) ∧
    ((writing 1 [.err]).resetIn = false ∧ (writing 1 [.err]).initTable[(writing 1 [.err]).stepIx]? = some 0xFB00#16) := by decide
theorem test_witness_SettleResult :
    ((settling 0).ph = .iSettle ∧ (settling 0).stepIx + 1 ≠ (settling 0).initTable.length) ∧
    ((settling 1).ph = .iSettle ∧ (settling 1).stepIx + 1 = (settling 1).initTable.length) := by decide
theorem test_witness_PaceResult : ({ base with ph := .pPace } : State).ph = .pPace := by decide
theorem test_witness_ArmResult :
    ((arming [.err]).ph = .pArm ∧ (arming [.err]).sendAnswers = [.err]) ∧ (arming [.count 0]).sendAnswers = [.count 0] ∧
    ((arming [.count 1]).sendAnswers = [.count 1] ∧ 1 ≤ 1) ∧ ((arming [.count 2]).sendAnswers = [.count 2] ∧ 1 ≤ 2) := by decide
-- Six bytes; none, five and seven bytes; Err.
theorem test_witness_RdrepResult :
    ((reading [.data [1#8, 2#8, 3#8, 4#8, 5#8, 6#8]]).ph = .pRead ∧
      (reading [.data [1#8, 2#8, 3#8, 4#8, 5#8, 6#8]]).recvAnswers = [.data [1#8, 2#8, 3#8, 4#8, 5#8, 6#8]]) ∧
    ((reading [.data []]).recvAnswers = [.data []] ∧ ([] : List Byte).length ≠ 6) ∧
    ((reading [.data [1#8, 2#8, 3#8, 4#8, 5#8]]).recvAnswers = [.data [1#8, 2#8, 3#8, 4#8, 5#8]] ∧
      ([1#8, 2#8, 3#8, 4#8, 5#8] : List Byte).length ≠ 6) ∧
    ([1#8, 2#8, 3#8, 4#8, 5#8, 6#8, 7#8] : List Byte).length ≠ 6 ∧ (reading [.err]).recvAnswers = [.err] := by decide
theorem test_witness_DecodeResult : (decoding 0xFD#8).ph = .pDecode := by decide
theorem test_witness_PublishResult : (publishing true false).ph = .pPublish := by decide
theorem test_witness_UnansweredTransactionWaits : ((writing 0 []).ph = .iWr ∧ (writing 0 []).sendAnswers = []) ∧
    ((arming []).ph = .pArm ∧ (arming []).sendAnswers = []) ∧ ((reading []).ph = .pRead ∧ (reading []).recvAnswers = []) := by decide
theorem test_witness_HangWithoutAnswer :
    ((writing 1 []).resetIn = false ∧ (writing 1 []).ph = .iWr ∧ (writing 1 []).sendAnswers = [] ∧
      (writing 1 []).initTable[(writing 1 []).stepIx]? = some 0xFB00#16) ∧
    ((arming []).resetIn = false ∧ (arming []).ph = .pArm ∧ (arming []).sendAnswers = []) ∧
    ((reading []).resetIn = false ∧ (reading []).ph = .pRead ∧ (reading []).recvAnswers = []) := by decide
theorem test_witness_DecoderTruthTable :
    (0xFC#8).extractLsb' 0 2 = 0b00#2 ∧ (0xFD#8).extractLsb' 0 2 = 0b01#2 ∧ (0xFE#8).extractLsb' 0 2 = 0b10#2 ∧
    (0xFF#8).extractLsb' 0 2 = 0b11#2 ∧ (#v[0#8, 0#8, 0#8, 0#8, 0#8, 0x55#8] : Report)[5].extractLsb' 0 2 =
      (#v[1#8, 2#8, 3#8, 4#8, 5#8, 0x01#8] : Report)[5].extractLsb' 0 2 := by decide
theorem test_witness_ReportPayloadIgnored :
    ((reading [.data [0#8, 0#8, 0#8, 0#8, 0#8, 0xFD#8]]).ph = .pRead ∧
      ([0#8, 0#8, 0#8, 0#8, 0#8, 0xFD#8] : List Byte).length = 6) ∧
    ((decoding 0xFD#8).ph = .pDecode ∧ (decoding 0xFD#8).resetIn = false ∧
      (#v[0#8, 0#8, 0#8, 0#8, 0#8, 0x01#8] : Report)[5].extractLsb' 0 2 = (decoding 0xFD#8).rxbuf[5].extractLsb' 0 2) := by decide
-- Faulted in IDLE: for a command run by `exec`, and for `INIT` and then `POLL` taken by steps.
theorem test_witness_FaultEntry :
    ((broken .readFailure).session = .faulted ∧ (broken .readFailure).ph = .idle) ∧
    (({ broken .readFailure with hostScript := [.cmd 0#1, .cmd 1#1] } : State).resetIn = false ∧
      ({ broken .readFailure with hostScript := [.cmd 0#1, .cmd 1#1] } : State).hostScript = [.cmd 0#1, .cmd 1#1]) ∧
    seen (fun t => (t.hostScript, t.session, t.ph)) (step { broken .readFailure with hostScript := [.cmd 0#1, .cmd 1#1] }) =
      some ([.cmd 1#1], .faulted, .idle) := by decide
-- One witness for each of the four causes.
theorem test_witness_FaultCauses :
    (∃ t, exec (.wr 0xF0#8 0x55#8) (writing 0 [.count 1]) = .next t ∧ t.session = .faulted ∧ t.reason = some .shortWrite) ∧
    (∃ t, exec (.wr 0xF0#8 0x55#8) (writing 0 [.err]) = .next t ∧ t.session = .faulted ∧ t.reason = some .transportError) ∧
    (∃ t, exec .arm (arming [.count 0]) = .next t ∧ t.session = .faulted ∧ t.reason = some .armFailure) ∧
    (∃ t, exec .rdrep (reading [.data []]) = .next t ∧ t.session = .faulted ∧ t.reason = some .readFailure) ∧
    (writing 0 [.err]).session ≠ .faulted ∧ base.session ≠ .faulted :=
  ⟨⟨_, rfl, rfl, rfl⟩, ⟨_, rfl, rfl, rfl⟩, ⟨_, rfl, rfl, rfl⟩, ⟨_, rfl, rfl, rfl⟩, by decide, by decide⟩

/-- A faulted session, with its invariants: its host goes on asking. -/
theorem test_witness_inv_faulted (script : List HostMove) : Inv { broken .armFailure with hostScript := script } :=
  ⟨by simp [broken, base], nofun, nofun, fun _ => rfl, by simp [broken, base], nofun⟩
theorem test_witness_OnlyResetLeavesFaulted :
    (∃ s t, Inv s ∧ s.session = .faulted ∧ s.hostScript = [.cmd 1#1] ∧ step s = .next t) ∧
    ∃ s t, Inv s ∧ s.session = .faulted ∧ s.hostScript = [.reset] ∧ step s = .next t :=
  ⟨⟨{ broken .armFailure with hostScript := [.cmd 1#1] }, _, test_witness_inv_faulted _, rfl, rfl, rfl⟩,
    ⟨{ broken .armFailure with hostScript := [.reset] }, _, test_witness_inv_faulted _, rfl, rfl, rfl⟩⟩
theorem test_witness_FaultedRunIsSilent : ∃ s : State, Inv s ∧ s.session = .faulted ∧ s.resetIn = false ∧
    s.hostScript = [.cmd 0#1, .cmd 1#1] ∧ HostMove.reset ∉ s.hostScript :=
  ⟨{ broken .armFailure with hostScript := [.cmd 0#1, .cmd 1#1] }, test_witness_inv_faulted _, rfl, rfl, rfl, by decide⟩
theorem test_witness_CommandFrame :
    (∃ t, exec .init fresh = .next t) ∧ (∃ t, exec .init base = .next t) ∧ (∃ t, exec .poll base = .next t) ∧
    ∃ t, exec .init { fresh with initTable := [] } = .next t := ⟨⟨_, rfl⟩, ⟨_, rfl⟩, ⟨_, rfl⟩, ⟨_, rfl⟩⟩
theorem test_witness_InitSequencerFrame :
    (∃ t, exec (.wr 0xF0#8 0x55#8) (writing 0 [.count 2]) = .next t) ∧
    (∃ t, exec (.wr 0xF0#8 0x55#8) (writing 0 []) = .next t) ∧ (∃ t, exec (.wr 0xF0#8 0x55#8) (writing 0 [.err]) = .next t) ∧
    (∃ t, exec .settle (settling 0) = .next t) ∧ ∃ t, exec .settle (settling 1) = .next t :=
  ⟨⟨_, rfl⟩, ⟨_, rfl⟩, ⟨_, rfl⟩, ⟨_, rfl⟩, ⟨_, rfl⟩⟩
theorem test_witness_PollCycleFrame :
    (∃ t, exec .pace { base with ph := .pPace } = .next t) ∧ (∃ t, exec .arm (arming [.count 1]) = .next t) ∧
    (∃ t, exec .arm (arming [.err]) = .next t) ∧ (∃ t, exec .rdrep (reading []) = .next t) ∧
    ∃ t, exec .rdrep (reading [.data [1#8, 2#8, 3#8, 4#8, 5#8, 6#8]]) = .next t :=
  ⟨⟨_, rfl⟩, ⟨_, rfl⟩, ⟨_, rfl⟩, ⟨_, rfl⟩, ⟨_, rfl⟩⟩
theorem test_witness_DecodePublishFrame :
    (∃ t, exec .decode (decoding 0x00#8) = .next t) ∧ ∃ t, exec .publish (publishing true true) = .next t := ⟨⟨_, rfl⟩, ⟨_, rfl⟩⟩
/-- Steps that answer a next state, one for each way `SESSION`, `REASON`, `STEP` and `RXBUF` are written: the hypothesis of
`TableNeverWritten`, `TraceOnlyGrows` and the `…Writers` statements. -/
theorem test_witness_step_next :
    (∃ t, step { base with hostScript := [.reset] } = .next t ∧ t.session = .uninitialized) ∧
    (∃ t, step (settling 1) = .next t ∧ t.session = .ready ∧ t.stepIx = 2) ∧
    (∃ t, step { fresh with initTable := [], hostScript := [.cmd 0#1] } = .next t ∧ t.session = .ready) ∧
    (∃ t, step (arming [.err]) = .next t ∧ t.session = .faulted ∧ t.reason = some .armFailure) ∧
    (∃ t, step { fresh with stepIx := 2, hostScript := [.cmd 0#1] } = .next t ∧ t.stepIx = 0) ∧
    ∃ t, step (reading [.data [1#8, 2#8, 3#8, 4#8, 5#8, 6#8]]) = .next t ∧ t.rxbuf = #v[1#8, 2#8, 3#8, 4#8, 5#8, 6#8] :=
  ⟨⟨_, rfl, rfl⟩, ⟨_, rfl, rfl, rfl⟩, ⟨_, rfl, rfl⟩, ⟨_, rfl, rfl, rfl⟩, ⟨_, rfl, rfl⟩, ⟨_, rfl, rfl⟩⟩

/-- One witness for each clause of `StepWriters`: settle delay, reset by the input and by the script, accepted `INIT`, a step in another
phase, a rejected `INIT`, and `IDLE` with no move. -/
theorem test_witness_StepWriters :
    (∃ t, step (settling 0) = .next t ∧ (settling 0).ph = .iSettle) ∧
    (∃ t, step { base with stepIx := 2, resetIn := true } = .next t) ∧
    (∃ t, step { base with stepIx := 2, hostScript := [.reset] } = .next t ∧ t.stepIx = 0) ∧
    (∃ t, step { fresh with stepIx := 2, hostScript := [.cmd 0#1] } = .next t ∧ t.stepIx = 0) ∧
    (∃ t, step (writing 1 [.count 1]) = .next t ∧ t.stepIx = 1) ∧
    (∃ t, step { base with stepIx := 2, hostScript := [.cmd 0#1] } = .next t ∧ t.stepIx = 2) ∧
    ∃ t, step { base with stepIx := 2 } = .next t ∧ t.stepIx = 2 :=
  ⟨⟨_, rfl, rfl⟩, ⟨_, rfl⟩, ⟨_, rfl, rfl⟩, ⟨_, rfl, rfl⟩, ⟨_, rfl, rfl⟩, ⟨_, rfl, rfl⟩, ⟨_, rfl, rfl⟩⟩
/-- A drawing step of two instances, which have two sources. -/
theorem test_witness_DrawsAreTheInstancesOwn :
    (∃ t, step { State.resetOn 0 with ph := .pPace, session := .ready } = .next t ∧ t.freeSource = 0 ∧ t.freeIx = 2) ∧
    ∃ t, step { State.resetOn 1 with ph := .pPace, session := .ready } = .next t ∧ t.freeSource = 1 ∧ t.freeIx = 2 :=
  ⟨⟨_, rfl, rfl, rfl⟩, ⟨_, rfl, rfl, rfl⟩⟩

/-- At the last settle delay of the two-step handshake, with the history that leads there. -/
def lastSettle : State := { settling 1 with trace :=
  [.cmd 0#1, .tx [0xF0#8, 0x55#8] (.count 2), .delay 1000, .tx [0xFB#8, 0x00#8] (.count 2)] }

theorem test_witness_inv_lastSettle : Inv lastSettle :=
  ⟨by decide, fun _ => by decide, nofun, nofun, by decide, nofun⟩
theorem test_witness_history_lastSettle : History lastSettle :=
  ⟨[], [.count 2], .count 2, 0xFB00#16, rfl, fun a h => by simp at h; subst h; exact Nat.le_refl 2,
    Nat.le_refl 2, rfl, rfl⟩
theorem test_witness_ReadyOnlyByCompleteInit :
    ∃ s t, Inv s ∧ History s ∧ step s = .next t ∧ s.session ≠ .ready ∧ t.session = .ready :=
  ⟨lastSettle, _, test_witness_inv_lastSettle, test_witness_history_lastSettle, rfl, by decide, rfl⟩
/-- The one-command case of the same: the empty table. -/
theorem test_witness_ReadyOnlyByCompleteInit_empty :
    ∃ s t, Inv s ∧ History s ∧ step s = .next t ∧ s.session ≠ .ready ∧ t.session = .ready :=
  ⟨{ fresh with initTable := [], hostScript := [.cmd 0#1] }, _, ⟨by decide, nofun, nofun, nofun, by decide, nofun⟩, trivial, rfl,
    by decide, rfl⟩

/-- At the decode of a poll, with the history that leads there. -/
def polled : State := { decoding 0xFD#8 with trace :=
  [.cmd 1#1, .delay 10000, .tx [0x00#8] (.count 1), .rx 6 (.data [0xFF#8, 0xFF#8, 0xFF#8, 0xFF#8, 0xFF#8, 0xFD#8])] }

theorem test_witness_DecodeReadsFreshReport : History polled ∧ polled.ph = .pDecode ∧ polled.resetIn = false :=
  ⟨⟨[], 10000, .count 1, Nat.le_refl _, by decide, Nat.le_refl 1, rfl⟩, rfl, rfl⟩
theorem test_witness_BoundedTransportGivesExactCounts :
    (∃ t, exec (.wr 0xF0#8 0x55#8) (writing 0 [.count 2]) = .next t ∧ t.ph = .iSettle ∧ TransportBounded t) ∧
    ∃ t, exec .arm (arming [.count 1]) = .next t ∧ t.ph = .pRead ∧ TransportBounded t := by
  refine ⟨⟨_, rfl, rfl, ?_⟩, ⟨_, rfl, rfl, ?_⟩⟩
  · intro e he
    cases he with
    | head => exact Nat.le_refl 2
    | tail _ h => cases h
  · intro e he
    cases he with
    | head => exact Nat.le_refl 1
    | tail _ h => cases h
theorem test_witness_inv_writing (answers : List SendAnswer) : Inv (writing 0 answers) :=
  ⟨by simp [writing, fresh, base], fun _ => ⟨rfl, by simp [writing, fresh, base]⟩, nofun, nofun, by simp [writing, fresh, base], nofun⟩
theorem test_witness_CommandAdvances : Inv (writing 0 [.count 2]) ∧ (writing 0 [.count 2]).resetIn = false ∧
    (writing 0 [.count 2]).ph ≠ .idle ∧ TransportAnswers (writing 0 [.count 2]) :=
  ⟨test_witness_inv_writing _, rfl, by decide, by decide, nofun⟩
/-- `Inv` with a transaction outstanding. -/
theorem test_witness_inv_outstanding :
    Inv { writing 0 [] with txbuf := #v[0xF0#8, 0x55#8], busReq := some (.send [0xF0#8, 0x55#8]) } :=
  ⟨by decide, fun _ => by decide, nofun, nofun, by decide, fun r h => by cases h; exact .inl ⟨rfl, rfl⟩⟩
theorem test_witness_InvKept : ∃ s t, Inv s ∧ step s = .next t ∧ t.session = .faulted :=
  ⟨writing 0 [.err], _, test_witness_inv_writing _, rfl, rfl⟩
theorem test_witness_ResponsesBalanceKept : ∃ s t, ResponsesBalance s ∧ step s = .next t ∧ t.ph = .idle ∧ s.ph ≠ .idle :=
  ⟨lastSettle, _, by unfold ResponsesBalance; decide, rfl, rfl, by decide⟩
theorem test_witness_EventsOkKept : ∃ s t, EventsOk s ∧ step s = .next t ∧ t.trace.length = 2 :=
  ⟨writing 0 [.count 1], _, by simp [EventsOk, writing, fresh, base], rfl, rfl⟩
theorem test_witness_HistoryKept : ∃ s t, History s ∧ step s = .next t ∧ t.ph = .pPublish :=
  ⟨polled, _, test_witness_DecodeReadsFreshReport.1, rfl, rfl⟩
theorem test_witness_GoodStatesNeverStop : Inv (writing 0 []) ∧ ResetIdle (writing 0 []) := ⟨test_witness_inv_writing _, nofun⟩
/-- With the reset input asserted in `IDLE`. -/
theorem test_witness_GoodStatesNeverStop_reset : ∃ s, Inv s ∧ ResetIdle s ∧ s.resetIn = true :=
  ⟨{ fresh with resetIn := true }, ⟨by decide, nofun, nofun, nofun, by decide, nofun⟩, fun _ => rfl, rfl⟩
-- Section 3.4, two entries: two answers whatever the second; `Count(1)` alone; `Err` alone.
theorem test_witness_InitRefinesBigStep (answers : List SendAnswer)
    (h : answers = [.count 2, .count 2] ∨ answers = [.count 2, .err] ∨ answers = [.count 1] ∨ answers = [.err]) :
    ∃ s : State, Inv s ∧ s.resetIn = false ∧ s.ph = .idle ∧ s.session = .uninitialized ∧ s.hostScript = [.cmd 0#1] ∧
      s.initTable = [0xF055#16, 0xFB00#16] ∧ s.sendAnswers = answers ∧ initAnswered s.initTable s.sendAnswers = true :=
  ⟨{ fresh with hostScript := [.cmd 0#1], sendAnswers := answers },
    ⟨by simp [fresh, base], nofun, nofun, nofun, by simp [fresh, base], nofun⟩, rfl, rfl, rfl, rfl, rfl, rfl,
    by rcases h with rfl | rfl | rfl | rfl <;> decide⟩
theorem test_init_unanswered : initAnswered [0xF055#16, 0xFB00#16] [.count 2] = false ∧ initAnswered [] [] = true := by decide
theorem test_big_init : bigInit [0xF055#16, 0xFB00#16] [.count 2, .count 1] =
    ([.tx [0xF0#8, 0x55#8] (.count 2), .delay 1000, .tx [0xFB#8, 0x00#8] (.count 1)], some .shortWrite, 1) := by decide
-- Program P5: the arming write fails and no read has an answer; and, for an accepted one, every answer to the read.
theorem test_witness_PollRefinesBigStep (a : SendAnswer) (reads : List RecvAnswer) : ∃ s : State, Inv s ∧ s.resetIn = false ∧
    s.ph = .idle ∧ s.session = .ready ∧ s.hostScript = [.cmd 1#1] ∧ s.sendAnswers = [a] ∧ s.recvAnswers = reads :=
  ⟨{ base with hostScript := [.cmd 1#1], sendAnswers := [a], recvAnswers := reads },
    ⟨by simp [base], nofun, nofun, nofun, by simp [base], nofun⟩, rfl, rfl, rfl, rfl, rfl, rfl⟩
theorem test_witness_PollRefinesBigStep_accepted : accepts 1 (.count 1) ∧ accepts 1 (.count 2) := by simp [accepts]
-- `INIT` in `Ready` and in `Faulted`, `POLL` in `Uninitialized` and in `Faulted`.
theorem test_witness_RejectedCommandStep :
    (({ base with hostScript := [.cmd 0#1] } : State).resetIn = false ∧ base.ph = .idle ∧ base.session ≠ .uninitialized) ∧
    ((broken .readFailure).ph = .idle ∧ (broken .readFailure).session ≠ .uninitialized ∧ (broken .readFailure).session ≠ .ready) ∧
    (({ fresh with hostScript := [.cmd 1#1] } : State).resetIn = false ∧ fresh.ph = .idle ∧ fresh.session ≠ .ready) := by decide

end Sys2Proof.Tests
end

section
/-! R94: of a report only bits 1:0 of byte 5 matter. From `P_DECODE` on a poll is a function of the levels `decodeReport` reads and
of the state without `RXBUF`, and `decodeReport` reads those two bits alone. -/

namespace Sys2Proof.Machine

/-! ### The micro-operations that the code of `PH` selects -/

/-- In a phase whose code selects an operation by itself (R87, R91), a step is that operation. -/
theorem step_of_phase {s : State} {i : Instr} (hr : s.resetIn = false) (hd : decode (.phase s.ph.code) = .ok i) :
    step s = exec i s := by
  have hf : fetch s = fetchSelector (.phase s.ph.code) s := by
    unfold fetch
    cases hp : s.ph with
    | idle | iWr => rw [hp] at hd; cases hd
    | iSettle | pPace | pArm | pRead | pDecode | pPublish => simp [hr]
  simp [step, hf, fetchSelector, hd]

/-- A receive with an answer at hand is answered (R52). -/
theorem busRecv_of_cons {s : State} {a : RecvAnswer} {rest : List RecvAnswer} (h : s.recvAnswers = a :: rest) :
    busRecv reportLen s = .answered a (received a rest s) := by
  simp [busRecv, h, received, reportLen]

/-- `RDREP` takes any six bytes as the report (R94, R132). -/
theorem exec_rdrep_of_report {s : State} {d : List Byte} {rest : List RecvAnswer} (hp : s.ph = .pRead)
    (hs : s.recvAnswers = .data d :: rest) (hd : d.length = reportLen) :
    exec .rdrep s = .next (setPhase .pDecode (setRx (reportOf d hd) (received (.data d) rest s))) := by
  simp [exec, execRdrep, inPhase_of hp, busRecv_of_cons hs, rdrepAnswered, hd]

/-- `DECODE` in its phase (R150). -/
theorem exec_decode_of_pDecode {s : State} (hp : s.ph = .pDecode) :
    exec .decode s = .next (setPhase .pPublish (setBtn (decodeReport s.rxbuf) s)) :=
  inPhase_of hp

/-- The state after `PUBLISH` has handed out the levels of `BTN` (R162). -/
def published (s : State) : State :=
  emit (.rsp (.okButtons s.btn.zPressed s.btn.cPressed)) (setPhase .idle (emit (.sink .sync)
    (emit (.sink (.key .c s.btn.cPressed)) (emit (.sink (.key .z s.btn.zPressed)) s))))

@[simp] theorem published_ph (s : State) : (published s).ph = .idle := rfl

/-- `PUBLISH` in its phase (R162). -/
theorem exec_publish_of_pPublish {s : State} (hp : s.ph = .pPublish) : exec .publish s = .next (published s) :=
  inPhase_of hp

/-! ### The report's payload -/

/-- The levels of a report depend on bits 1:0 of its byte 5 alone (R151). -/
theorem decodeReport_congr {r r' : Report} (h : r[5].extractLsb' 0 2 = r'[5].extractLsb' 0 2) :
    decodeReport r = decodeReport r' := by
  have hbit (i : Nat) (hi : i < 2) : r[5].getLsbD i = r'[5].getLsbD i := by
    simpa [BitVec.getLsbD_extractLsb', hi] using congrArg (BitVec.getLsbD · i) h
  rw [decodeReport_eq, decodeReport_eq, hbit 0 (by decide), hbit 1 (by decide)]

/-- The state after the levels `b` have been kept and then published (R150, R162). -/
def decodedAndPublished (b : ButtonState) (s : State) : State := published (setPhase .pPublish (setBtn b s))

/-- Neither operation writes `RXBUF`, and `PUBLISH` does not read it. -/
theorem decodedAndPublished_setRx (b : ButtonState) (r : Report) (s : State) :
    decodedAndPublished b (setRx r s) = setRx r (decodedAndPublished b s) := rfl

end Sys2Proof.Machine

namespace Sys2Proof.Safety

open Sys2Proof.Machine

/-- Two steps from `P_DECODE` end the poll: the report counts only through its levels. -/
theorem run_two_of_pDecode {s : State} (hp : s.ph = .pDecode) (hr : s.resetIn = false) :
    run 2 s = .next (decodedAndPublished (decodeReport s.rxbuf) s) := by
  have hdecode : step s = .next (setPhase .pPublish (setBtn (decodeReport s.rxbuf) s)) :=
    (step_of_phase hr (by rw [hp]; rfl)).trans (exec_decode_of_pDecode hp)
  have hpublish : step (setPhase .pPublish (setBtn (decodeReport s.rxbuf) s)) =
      .next (decodedAndPublished (decodeReport s.rxbuf) s) :=
    (step_of_phase (by simpa using hr) (by rfl)).trans (exec_publish_of_pPublish (by simp))
  rw [run_succ 1 hdecode, run_succ 0 hpublish, run_zero]

/-- Settles O28: `RDREP` branches on the count alone, and the two runs differ in a report that decodes to the same levels. -/
theorem reportPayloadIgnored : Obligations.ReportPayloadIgnored := by
  unfold Obligations.ReportPayloadIgnored
  constructor
  · intro s d rest hp hs hd
    exact ⟨_, exec_rdrep_of_report hp hs hd, rfl, rfl, rfl⟩
  · intro s r hp hr hbits
    refine ⟨decodedAndPublished (decodeReport s.rxbuf) s, run_two_of_pDecode hp hr, ?_, rfl⟩
    calc run 2 (setRx r s)
        = .next (decodedAndPublished (decodeReport r) (setRx r s)) := run_two_of_pDecode hp hr
      _ = .next (setRx r (decodedAndPublished (decodeReport s.rxbuf) s)) := by
          rw [decodeReport_congr hbits, decodedAndPublished_setRx]

end Sys2Proof.Safety
end

section
/-! R150, R153: what `DECODE` writes, and the truth table of the two bits that the levels are read from. -/

namespace Sys2Proof.Machine

/-- The levels of a report are the complements of the two low bits of its byte 5 (R153). -/
theorem decodeReport_of_lowBits {r : Report} {v : BitVec 2} (h : r[5].extractLsb' 0 2 = v) :
    decodeReport r = ⟨!v.getLsbD 0, !v.getLsbD 1⟩ := by
  subst h
  simp [decodeReport_eq]

end Sys2Proof.Machine

namespace Sys2Proof.Safety

open Sys2Proof.Machine

/-- Settles O27: each row of the table is the value of `decodeReport_of_lowBits` at its two bits. -/
theorem decoderTruthTable : Obligations.DecoderTruthTable := by
  unfold Obligations.DecoderTruthTable
  constructor
  · intro r
    exact ⟨decodeReport_of_lowBits, decodeReport_of_lowBits, decodeReport_of_lowBits, decodeReport_of_lowBits⟩
  · intro r r' hbits
    exact decodeReport_congr hbits

/-- Settles O23: in its phase `DECODE` writes the levels of `RXBUF`, and each masked test is the complement of the bit it selects. -/
theorem decodeResult : Obligations.DecodeResult := by
  unfold Obligations.DecodeResult
  intro s hp
  exact ⟨exec_decode_of_pDecode hp, zPressedOf_eq s.rxbuf[5], cPressedOf_eq s.rxbuf[5]⟩

end Sys2Proof.Safety
end

section
/-! R165: what `POLL` does in `IDLE` when the session does not allow it. -/

namespace Sys2Proof.Machine

/-- `POLL` outside `Ready` sends the rejection and writes no register (R163, R165). -/
theorem exec_poll_of_not_ready {s : State} (hp : s.ph = .idle) (hs : s.session ≠ .ready) :
    exec .poll s = .next (emit (.rsp .rejected) s) :=
  (whenIdle_of hp).trans (if_neg hs)

end Sys2Proof.Machine

namespace Sys2Proof.Safety

open Sys2Proof.Machine

/-- Settles O17: `Faulted` is not `Ready`, so `POLL` only emits the rejection. -/
theorem pollInFaultedRejected : Obligations.PollInFaultedRejected := by
  unfold Obligations.PollInFaultedRejected
  intro s hp hfaulted
  have hs : s.session ≠ .ready := by simp [hfaulted]
  exact exec_poll_of_not_ready hp hs

end Sys2Proof.Safety
end

section
/-! The codec: each operation has one selector, one byte form and one table word, and each of the three decodes to it (R80,
R82, R87, R91; log 13). -/

namespace Sys2Proof

/-! ### The selector -/

/-- Decoding an operation's selector gives the operation (R91). -/
theorem decode_encode (i : Instr) : decode (encode i) = .ok i := by
  cases i with
  | wr reg val => simp [encode, decode]
  | init | poll | settle | pace | arm | rdrep | decode | publish => rfl

/-- A selector that decodes to an operation is the operation's own (R82, R91). -/
theorem encode_of_decode {sel : Selector} {i : Instr} (h : decode sel = .ok i) : encode i = sel := by
  cases sel with
  | cmd op =>
    have hop : op = opInit ∨ op = opPoll := by
      clear h
      revert op
      decide
    rcases hop with rfl | rfl <;> cases h <;> rfl
  | entry word =>
    cases h
    simp [encode]
  | phase code =>
    rw [← Machine.phase_code_ofCode code] at h ⊢
    cases hp : Phase.ofCode code with
    | idle | iWr => rw [hp] at h; cases h
    | iSettle | pPace | pArm | pRead | pDecode | pPublish => rw [hp] at h; cases h; rfl

/-! ### The bytes (log 13) -/

/-- Every operation's selector selects it by itself: the family `Encoding` over all constructors. -/
theorem encode_wf (i : Instr) : (encode i).wf = true := by
  cases i <;> rfl

/-- The bytes of a selector spell it. -/
theorem selectorOfBytes_bytesOfSelector {sel : Selector} (h : sel.wf = true) :
    selectorOfBytes (bytesOfSelector sel) = .ok sel := by
  cases sel with
  | cmd op =>
    clear h
    revert op
    decide
  | entry word => exact congrArg (Except.ok ∘ Selector.entry) (entryOf_halves word)
  | phase code =>
    revert code
    decide

/-- Decoding an operation's bytes gives the operation. -/
theorem decodeBytes_encodeBytes (i : Instr) : decodeBytes (encodeBytes i) = .ok i := by
  simp only [decodeBytes, encodeBytes, selectorOfBytes_bytesOfSelector (encode_wf i), decode_encode]

/-! ### The words of the opcode table (log 13) -/

/-- The two bytes of a 16-bit table word are those of the entry. -/
theorem tableBytes_of_entry (word : Entry) : tableBytes 16 word.toNat = some (bytesOfSelector (.entry word)) := by
  have hval : BitVec.ofNat 8 word.toNat = entryVal word := by
    apply BitVec.eq_of_toNat_eq
    simp [entryVal, BitVec.extractLsb'_toNat]
  have hreg : BitVec.ofNat 8 (word.toNat / 256) = entryReg word := by
    apply BitVec.eq_of_toNat_eq
    simp [entryReg, BitVec.extractLsb'_toNat, Nat.shiftRight_eq_div_pow]
  simp [tableBytes, bytesOfSelector, hval, hreg]

/-- The bytes of an operation's table word are the operation's bytes. -/
theorem tableBytes_tableWord (i : Instr) : tableBytes (tableBits i) (tableWord i) = some (encodeBytes i) := by
  cases i with
  | wr reg val => exact tableBytes_of_entry (entryOf reg val)
  | init | poll | settle | pace | arm | rdrep | decode | publish => rfl

/-- Decoding an operation's table word gives the operation. -/
theorem decodeTableWord_tableWord (i : Instr) : decodeTableWord (tableBits i) (tableWord i) = some i := by
  have hsel : tableSelector (tableBits i) (tableWord i) = some (encode i) := by
    simp only [tableSelector, tableBytes_tableWord, encodeBytes, selectorOfBytes_bytesOfSelector (encode_wf i)]
  simp only [decodeTableWord, hsel, decode_encode]

/-- A table word that decodes to an operation names a selector that does. -/
theorem tableSelector_of_decodeTableWord {nbits w : Nat} {i : Instr} (h : decodeTableWord nbits w = some i) :
    ∃ sel, tableSelector nbits w = some sel ∧ decode sel = .ok i := by
  unfold decodeTableWord at h
  split at h
  · cases h
  · rename_i sel hsel
    split at h
    · rename_i j hd
      cases h
      exact ⟨sel, hsel, hd⟩
    · cases h

end Sys2Proof

namespace Sys2Proof.Safety

/-- Settles O3: the three round trips, each through the selector. -/
theorem decodeOfEncode : Obligations.DecodeOfEncode := by
  unfold Obligations.DecodeOfEncode
  intro i _
  exact ⟨decode_encode i, decodeBytes_encodeBytes i, decodeTableWord_tableWord i⟩

/-- Settles O4: by the three kinds of selector. -/
theorem encodeOfDecode : Obligations.EncodeOfDecode := by
  unfold Obligations.EncodeOfDecode
  intro sel i h
  exact encode_of_decode h

/-- Settles O1: each word is evaluated; the two refusals are those of `PH` alone. -/
theorem handWrittenWordsDecode : Obligations.HandWrittenWordsDecode := by
  unfold Obligations.HandWrittenWordsDecode
  decide

/-- Settles O2: the two fixed tables are evaluated, and an entry line is its register byte above its value byte. -/
theorem tableLinesAssemble : Obligations.TableLinesAssemble := by
  unfold Obligations.TableLinesAssemble
  exact ⟨by decide, by decide, fun _ _ => rfl⟩

/-- Settles O5: every code is evaluated. -/
theorem messageCodes : Obligations.MessageCodes := by
  unfold Obligations.MessageCodes
  decide

/-- Settles O6: the flag is tested before the count is looked at (R199). -/
theorem errorFlagWins : Obligations.ErrorFlagWins := by
  unfold Obligations.ErrorFlagWins
  intro count bytes
  exact ⟨rfl, rfl, rfl⟩

end Sys2Proof.Safety
end

section
/-! What the step and each operation do, as equations: one per case of the rule, with the next state in the vocabulary of
Laws/State.lean and Laws/Step.lean. -/

namespace Sys2Proof.Machine

/-! ### The states of Laws/Step.lean, as register writes -/

@[simp] theorem sent_eq (bytes : List Byte) (a : SendAnswer) (rest : List SendAnswer) (s : State) :
    sent bytes a rest s = emit (.tx bytes a) (setBusReq none (setSendAnswers rest s)) := rfl

@[simp] theorem received_eq (a : RecvAnswer) (rest : List RecvAnswer) (s : State) :
    received a rest s = emit (.rx 6 a) (setBusReq none (setRecvAnswers rest s)) := rfl

@[simp] theorem taken_eq (op : BitVec 1) (rest : List HostMove) (s : State) :
    taken op rest s = emit (.cmd op) (setHostScript rest s) := rfl

@[simp] theorem loaded_eq (w : Entry) (s : State) : loaded w s = setTx1 (entryVal w) (setTx0 (entryReg w) s) := rfl

/-- Two events, one after the other. -/
theorem emit_emit (e f : Event) (s : State) : emit f (emit e s) = { s with trace := s.trace ++ [e, f] } := by
  simp [emit]

/-- Both bytes of `TXBUF` written. -/
theorem setTx1_setTx0 (reg val : Byte) (s : State) : setTx1 val (setTx0 reg s) = { s with txbuf := #v[reg, val] } := by
  simp [setTx1, setTx0, txbuf_after_wr]

/-- Fault entry right after an event. -/
theorem raiseFault_emit (reason : ErrKind) (e : Event) (s : State) :
    raiseFault reason (emit e s) = { s with
      session := .faulted, reason := some reason, ph := .idle, trace := s.trace ++ [e, .rsp (.err reason)] } := by
  simp [raiseFault, emit, setPhase, setReason, setSession]

/-! ### The step -/

/-- The reset input in `IDLE` constructs a session (R168). -/
theorem step_of_resetIn {s : State} (hr : s.resetIn = true) (hp : s.ph = .idle) : step s = .next (constructSession s) := by
  simp [step, fetch, hr, resetInput, hp]

/-- The host's `RESET` in `IDLE` constructs a session (R168). -/
theorem step_of_reset {s : State} {rest : List HostMove} (hr : s.resetIn = false) (hp : s.ph = .idle)
    (hs : s.hostScript = .reset :: rest) : step s = .next (constructSession (setHostScript rest s)) := by
  simp [step, fetch, hr, resetInput, hp, hs]

/-- In `IDLE` with no move of the host a step waits (R40, R167). -/
theorem step_of_wait {s : State} (hr : s.resetIn = false) (hp : s.ph = .idle) (hs : s.hostScript = []) :
    step s = .next s := by
  simp [step, fetch, hr, hp, hs]

/-- In `IDLE` a step takes the host's command and runs it (R91). -/
theorem step_of_cmd {s : State} {op : BitVec 1} {rest : List HostMove} {i : Instr} (hr : s.resetIn = false)
    (hp : s.ph = .idle) (hs : s.hostScript = .cmd op :: rest) (hd : decode (.cmd op) = .ok i) :
    step s = exec i (taken op rest s) := by
  simp [step, fetch, fetchSelector, hr, hp, hs, hd]

/-- In `I_WR` a step writes the entry `STEP` names (R70, R110). -/
theorem step_of_iWr {s : State} {w : Entry} (hr : s.resetIn = false) (hp : s.ph = .iWr)
    (hw : s.initTable[s.stepIx]? = some w) : step s = exec (.wr (entryReg w) (entryVal w)) s := by
  simp [step, fetch, fetchSelector, hr, hp, currentEntry, hw, decode]

/-- In `I_WR` with `STEP` outside the table there is no entry (log 12). -/
theorem step_of_absent_entry {s : State} (hr : s.resetIn = false) (hp : s.ph = .iWr)
    (hw : s.initTable.length ≤ s.stepIx) : step s = .fault .tableEntryAbsent := by
  simp [step, fetch, hr, hp, currentEntry, List.getElem?_eq_none hw]

/-! ### The commands -/

/-- `INIT` with the empty table ends at once (R114, R160). -/
theorem exec_init_of_empty {s : State} (hp : s.ph = .idle) (hs : s.session = .uninitialized) (hn : s.initTable = []) :
    exec .init s = .next (emit (.rsp .ok) (setSession .ready (setStep 0 s))) :=
  (whenIdle_of hp).trans (by simp [hs, hn, tableLen])

/-- `INIT` with a table goes on to the first write (R160). -/
theorem exec_init_of_nonempty {s : State} (hp : s.ph = .idle) (hs : s.session = .uninitialized) (hn : s.initTable ≠ []) :
    exec .init s = .next (setPhase .iWr (setStep 0 s)) :=
  (whenIdle_of hp).trans (by simp [hs, hn, tableLen])

/-- `INIT` outside `Uninitialized` sends the rejection and writes no register (R164). -/
theorem exec_init_of_not_uninitialized {s : State} (hp : s.ph = .idle) (hs : s.session ≠ .uninitialized) :
    exec .init s = .next (emit (.rsp .rejected) s) :=
  (whenIdle_of hp).trans (if_neg hs)

/-- `POLL` in `Ready` goes on to the pacing delay (R161). -/
theorem exec_poll_of_ready {s : State} (hp : s.ph = .idle) (hs : s.session = .ready) :
    exec .poll s = .next (setPhase .pPace s) :=
  (whenIdle_of hp).trans (if_pos hs)

/-! ### The init sequencer -/

/-- `WR` without an answer leaves its transaction outstanding (R59). -/
theorem exec_wr_of_nil {s : State} (hp : s.ph = .iWr) (hs : s.sendAnswers = []) (reg val : Byte) :
    exec (.wr reg val) s = .next (setBusReq (some (.send [reg, val])) (setTx1 val (setTx0 reg s))) :=
  (inPhase_of hp).trans (by simp [busSend, hs, w2Bytes])

/-- `WR` with an answer goes on by it (R110). -/
theorem exec_wr_of_cons {s : State} {a : SendAnswer} {rest : List SendAnswer} (hp : s.ph = .iWr)
    (hs : s.sendAnswers = a :: rest) (reg val : Byte) :
    exec (.wr reg val) s = .next (wrAnswered a (sent [reg, val] a rest (setTx1 val (setTx0 reg s)))) :=
  (inPhase_of hp).trans (by simp [busSend, hs, w2Bytes])

/-- A write accepted in full leads to the settle delay (R110). -/
theorem wrAnswered_of_le {k : Nat} (hk : 2 ≤ k) (s : State) : wrAnswered (.count k) s = setPhase .iSettle s := by
  simp [wrAnswered, wrFailure, wrLen, Nat.not_lt.mpr hk]

/-- A write accepted in part is `ShortWrite` (R110, R190). -/
theorem wrAnswered_of_lt {k : Nat} (hk : k < 2) (s : State) : wrAnswered (.count k) s = raiseFault .shortWrite s := by
  simp [wrAnswered, wrFailure, wrLen, hk]

/-- `SETTLE` of the last step ends the `INIT` (R111). -/
theorem exec_settle_of_last {s : State} (hp : s.ph = .iSettle) (hl : s.stepIx + 1 = s.initTable.length) :
    exec .settle s = .next (initDone (setStep (s.stepIx + 1) (emit (.delay 1000) s))) :=
  (inPhase_of hp).trans (by simp [lastStepDone, tableLen, hl, tSettle])

/-- `SETTLE` of another step leads to the next write (R111). -/
theorem exec_settle_of_more {s : State} (hp : s.ph = .iSettle) (hl : s.stepIx + 1 ≠ s.initTable.length) :
    exec .settle s = .next (setPhase .iWr (setStep (s.stepIx + 1) (emit (.delay 1000) s))) :=
  (inPhase_of hp).trans (by simp [lastStepDone, tableLen, hl, tSettle])

/-! ### The poll cycle -/

/-- `PACE` delays by some draw within the bounds (R130). -/
theorem exec_pace_of_pPace {s : State} (hp : s.ph = .pPace) :
    ∃ d, 10000 ≤ d ∧ d ≤ 20000 ∧ exec .pace s = .next (setPhase .pArm (emit (.delay d) (useFree s))) := by
  obtain ⟨hlo, hhi⟩ := drawValue_bounds (lo := tPaceMin) (hi := tPaceMax) (by decide) s
  exact ⟨drawValue tPaceMin tPaceMax s, hlo, hhi, inPhase_of hp⟩

/-- `ARM` without an answer leaves its transaction outstanding (R59). -/
theorem exec_arm_of_nil {s : State} (hp : s.ph = .pArm) (hs : s.sendAnswers = []) :
    exec .arm s = .next (setBusReq (some (.send [0x00#8])) (setTx0 0x00#8 s)) :=
  (inPhase_of hp).trans (by simp [busSend, hs, w1Bytes, armByte])

/-- `ARM` with an answer goes on by it (R131). -/
theorem exec_arm_of_cons {s : State} {a : SendAnswer} {rest : List SendAnswer} (hp : s.ph = .pArm)
    (hs : s.sendAnswers = a :: rest) :
    exec .arm s = .next (armAnswered a (sent [0x00#8] a rest (setTx0 0x00#8 s))) :=
  (inPhase_of hp).trans (by simp [busSend, hs, w1Bytes, armByte])

/-- An accepted arming write leads to the read (R131). -/
theorem armAnswered_of_le {k : Nat} (hk : 1 ≤ k) (s : State) : armAnswered (.count k) s = setPhase .pRead s := by
  simp [armAnswered, armFailure, armLen, show k ≠ 0 by omega]

/-- A failed arming write is `ArmFailure` (R131, R192). -/
theorem armAnswered_of_failure {a : SendAnswer} (ha : a = .err ∨ a = .count 0) (s : State) :
    armAnswered a s = raiseFault .armFailure s := by
  rcases ha with rfl | rfl <;> rfl

/-- `RDREP` without an answer leaves its transaction outstanding (R59). -/
theorem exec_rdrep_of_nil {s : State} (hp : s.ph = .pRead) (hs : s.recvAnswers = []) :
    exec .rdrep s = .next (setBusReq (some (.recv 6)) s) :=
  (inPhase_of hp).trans (by simp [busRecv, hs, reportLen])

/-- `RDREP` with an answer goes on by it (R132). -/
theorem exec_rdrep_of_cons {s : State} {a : RecvAnswer} {rest : List RecvAnswer} (hp : s.ph = .pRead)
    (hs : s.recvAnswers = a :: rest) : exec .rdrep s = .next (rdrepAnswered a (received a rest s)) :=
  (inPhase_of hp).trans (by simp [busRecv_of_cons hs])

/-- A read of another number of bytes, and one that fails, is `ReadFailure` (R132, R193). -/
theorem rdrepAnswered_of_failure {a : RecvAnswer} (ha : a = .err ∨ ∃ d, d.length ≠ 6 ∧ a = .data d) (s : State) :
    rdrepAnswered a s = raiseFault .readFailure s := by
  rcases ha with rfl | ⟨d, hd, rfl⟩
  · rfl
  · simp [rdrepAnswered, reportLen, hd]

end Sys2Proof.Machine
end

section
/-! The step: reset, waiting, and which operation it runs. -/

namespace Sys2Proof.Machine

/-- The table of `tableWith` holds the word at its index. -/
theorem tableWith_getElem? (n : Nat) (word : Entry) (table : List Entry) : (tableWith n word table)[n]? = some word := by
  have hlen : (table.take n ++ List.replicate (n - table.length) 0#16).length = n := by
    simp
    omega
  rw [tableWith, List.getElem?_append_right (by omega), hlen]
  simp

/-- The state that a placed selector's operation runs on: a command's after its arrival, any other's as it was placed. -/
def placedFor (sel : Selector) (s : State) : State :=
  match sel with
  | .cmd op => { s with ph := .idle, resetIn := false, trace := s.trace ++ [.cmd op] }
  | .entry _ | .phase _ => placeSelector sel s

/-- A placed selector's operation is what the next step runs (log 14). -/
theorem step_placeSelector {sel : Selector} {i : Instr} (s : State) (hd : decode sel = .ok i) :
    step (placeSelector sel s) = exec i (placedFor sel s) := by
  cases sel with
  | cmd op => exact (step_of_cmd rfl rfl rfl hd).trans (by
      simp [placeSelector, placedFor, emit, setHostScript, setPhase, setResetIn])
  | entry word =>
    cases hd
    exact step_of_iWr rfl rfl (tableWith_getElem? _ _ _)
  | phase code =>
    refine step_of_phase rfl ?_
    change decode (.phase (Phase.ofCode code).code) = .ok i
    rwa [phase_code_ofCode]

/-- A word of the opcode table that decodes is placed as the selector it names. -/
theorem withFetchWord_of_tableSelector {nbits w : Nat} {sel : Selector} (s : State)
    (h : tableSelector nbits w = some sel) : s.withFetchWord nbits w = placeSelector sel s := by
  simp [State.withFetchWord, h]

end Sys2Proof.Machine

namespace Sys2Proof.Safety

open Sys2Proof.Machine

/-- Settles O7: both parts are read off the reset state. -/
theorem resetConstructsSession : Obligations.ResetConstructsSession := by
  unfold Obligations.ResetConstructsSession
  exact ⟨rfl, fun _ => ⟨rfl, rfl, rfl, rfl, rfl, rfl, rfl, step_of_wait rfl rfl rfl⟩⟩

/-- Settles O8: the input comes before the script, so the two requests are told apart by it. -/
theorem resetFromIdle : Obligations.ResetFromIdle := by
  unfold Obligations.ResetFromIdle
  intro s hp hreq
  cases hr : s.resetIn with
  | true => exact ⟨_, step_of_resetIn hr hp, by simp⟩
  | false =>
    obtain ⟨rest, hs⟩ := hreq.resolve_left (by simp [hr])
    exact ⟨_, step_of_reset hr hp hs, by simp [hs]⟩

/-- Settles O9: the reset input is looked at first, and outside `IDLE` it is refused. -/
theorem resetDuringCommandRefused : Obligations.ResetDuringCommandRefused := by
  unfold Obligations.ResetDuringCommandRefused
  intro s hr hp
  simp [step, fetch, hr, resetInput, hp]

/-- Settles O10: this is the step's wait. -/
theorem idleWaitsForTheHost : Obligations.IdleWaitsForTheHost := by
  unfold Obligations.IdleWaitsForTheHost
  intro s hr hp hs
  exact step_of_wait hr hp hs

/-- Settles O11: one clause per way of selecting an operation. -/
theorem stepRunsDecoded : Obligations.StepRunsDecoded := by
  unfold Obligations.StepRunsDecoded
  intro s i hr
  refine ⟨fun op rest hp hs hd => ?_, fun w hp hw hd => ?_, fun _ _ hd => step_of_phase hr hd⟩
  · simpa [emit, setHostScript] using step_of_cmd hr hp hs hd
  · cases hd
    exact step_of_iWr hr hp hw

/-- Settles O12: the word names a selector, which is the operation's own, so its kind says which of the two clauses applies. -/
theorem placedWordRuns : Obligations.PlacedWordRuns := by
  unfold Obligations.PlacedWordRuns
  intro s nbits w i h
  obtain ⟨sel, hsel, hd⟩ := tableSelector_of_decodeTableWord h
  have hi := encode_of_decode hd
  have hstep := step_placeSelector s hd
  rw [withFetchWord_of_tableSelector s hsel]
  constructor
  · rintro (rfl | rfl) <;> subst hi <;> exact ⟨_, hd, hstep⟩
  · intro h1 h2
    cases i with
    | init => exact absurd rfl h1
    | poll => exact absurd rfl h2
    | wr reg val => subst hi; exact hstep
    | settle | pace | arm | rdrep | decode | publish => subst hi; exact hstep

/-- Settles O13: there is no entry to fetch. -/
theorem absentTableEntryFaults : Obligations.AbsentTableEntryFaults := by
  unfold Obligations.AbsentTableEntryFaults
  intro s hr hp hn
  exact step_of_absent_entry hr hp hn

end Sys2Proof.Safety
end

section
/-! The results of the operations as equations of the whole next state. -/

namespace Sys2Proof.Machine

/-- Outside its phase a micro-operation is refused by name (log 11). -/
theorem inPhase_of_ne {p : Phase} {s : State} (h : s.ph ≠ p) (k : Host.Outcome State Fault Refusal) :
    inPhase p s k = .refused (.notInPhase p) :=
  if_neg h

/-- Outside `IDLE` a command is refused by name (log 10). -/
theorem whenIdle_of_ne {s : State} (h : s.ph ≠ .idle) (k : Host.Outcome State Fault Refusal) :
    whenIdle s k = .refused .commandWhileBusy :=
  if_neg h

/-- A command that its session does not allow is taken, rejected, and does nothing else (R163, R164). -/
theorem step_of_rejected {s : State} {op : BitVec 1} {rest : List HostMove} (hr : s.resetIn = false) (hp : s.ph = .idle)
    (hs : s.hostScript = .cmd op :: rest)
    (hno : (op = 0#1 ∧ s.session ≠ .uninitialized) ∨ (op = 1#1 ∧ s.session ≠ .ready)) :
    step s = .next (emit (.rsp .rejected) (taken op rest s)) := by
  rcases hno with ⟨rfl, hn⟩ | ⟨rfl, hn⟩
  · exact (step_of_cmd hr hp hs rfl).trans (exec_init_of_not_uninitialized hp hn)
  · exact (step_of_cmd hr hp hs rfl).trans (exec_poll_of_not_ready hp hn)

/-- A `CMD` is one of the two commands (R80). -/
theorem op_eq_zero_or_one (op : BitVec 1) : op = 0#1 ∨ op = 1#1 := by
  revert op
  decide

/-- In `Faulted` every command is rejected (R163, R164). -/
theorem step_cmd_of_faulted {s : State} {op : BitVec 1} {rest : List HostMove} (hf : s.session = .faulted)
    (hr : s.resetIn = false) (hp : s.ph = .idle) (hs : s.hostScript = .cmd op :: rest) :
    step s = .next (emit (.rsp .rejected) (taken op rest s)) :=
  step_of_rejected hr hp hs ((op_eq_zero_or_one op).imp (⟨·, by simp [hf]⟩) (⟨·, by simp [hf]⟩))

end Sys2Proof.Machine

namespace Sys2Proof.Safety

open Sys2Proof.Machine

/-- Settles O14: each operation is guarded by its phase. -/
theorem operationsNeedTheirPhase : Obligations.OperationsNeedTheirPhase := by
  unfold Obligations.OperationsNeedTheirPhase
  intro s
  exact ⟨fun h => ⟨whenIdle_of_ne h _, whenIdle_of_ne h _⟩, fun h _ _ => inPhase_of_ne h _, fun h => inPhase_of_ne h _,
    fun h => inPhase_of_ne h _, fun h => inPhase_of_ne h _, fun h => inPhase_of_ne h _, fun h => inPhase_of_ne h _,
    fun h => inPhase_of_ne h _⟩

/-- Settles O15: the three cases of `INIT`. -/
theorem initCommandResult : Obligations.InitCommandResult := by
  unfold Obligations.InitCommandResult
  intro s hp
  exact ⟨exec_init_of_empty hp, exec_init_of_nonempty hp, exec_init_of_not_uninitialized hp⟩

/-- Settles O16: the two cases of `POLL`. -/
theorem pollCommandResult : Obligations.PollCommandResult := by
  unfold Obligations.PollCommandResult
  intro s hp
  exact ⟨exec_poll_of_ready hp, exec_poll_of_not_ready hp⟩

/-- Settles O18: `WR` fills `TXBUF`, and the answer decides between the two failures and the settle delay. -/
theorem wrResult : Obligations.WrResult := by
  unfold Obligations.WrResult
  intro s hp
  refine ⟨fun reg val rest => ⟨fun hs => ?_, fun k hk hs => ?_, fun k hk hs => ?_⟩, fun w hr hw => step_of_iWr hr hp hw⟩
  · rw [exec_wr_of_cons hp hs, setTx1_setTx0]
    exact congrArg _ (raiseFault_emit _ _ _)
  · rw [exec_wr_of_cons hp hs, setTx1_setTx0, wrAnswered_of_lt hk]
    exact congrArg _ (raiseFault_emit _ _ _)
  · rw [exec_wr_of_cons hp hs, setTx1_setTx0, wrAnswered_of_le hk]
    rfl

/-- Settles O19: the two cases of `SETTLE`. -/
theorem settleResult : Obligations.SettleResult := by
  unfold Obligations.SettleResult
  intro s hp
  refine ⟨fun hl => (exec_settle_of_last hp hl).trans ?_, exec_settle_of_more hp⟩
  simp [initDone, emit, setPhase, setSession, setStep]

/-- Settles O20: `PACE` delays by its draw. -/
theorem paceResult : Obligations.PaceResult := by
  unfold Obligations.PaceResult
  intro s hp
  exact exec_pace_of_pPace hp

/-- Settles O21: `ARM` sends the arming byte, and the answer decides. -/
theorem armResult : Obligations.ArmResult := by
  unfold Obligations.ArmResult
  intro s rest hp
  refine ⟨fun a ha hs => ?_, fun k hk hs => ?_⟩
  · rw [exec_arm_of_cons hp hs, armAnswered_of_failure ha]
    exact congrArg _ (raiseFault_emit _ _ _)
  · rw [exec_arm_of_cons hp hs, armAnswered_of_le hk]
    rfl

/-- Settles O22: `RDREP` takes six bytes as the report; every other answer is the one failure. -/
theorem rdrepResult : Obligations.RdrepResult := by
  unfold Obligations.RdrepResult
  intro s rest hp
  refine ⟨fun b0 b1 b2 b3 b4 b5 hs => ?_, fun a ha hs => ?_⟩
  · rw [exec_rdrep_of_report hp hs rfl]
    simp [reportOf, emit, setPhase, setRx, setBusReq, setRecvAnswers]
  · rw [exec_rdrep_of_cons hp hs, rdrepAnswered_of_failure ha]
    exact congrArg _ (raiseFault_emit _ _ _)

/-- Settles O24: the three messages and the response, in the order of `published`. -/
theorem publishResult : Obligations.PublishResult := by
  unfold Obligations.PublishResult
  intro s hp
  rw [exec_publish_of_pPublish hp]
  simp [published, emit, setPhase]

/-- Settles O25: the three transactions, each without an answer. -/
theorem unansweredTransactionWaits : Obligations.UnansweredTransactionWaits := by
  unfold Obligations.UnansweredTransactionWaits
  intro s
  refine ⟨fun hp hs reg val => ?_, exec_arm_of_nil, exec_rdrep_of_nil⟩
  rw [exec_wr_of_nil hp hs, setTx1_setTx0]
  rfl

/-- A step whose next state it answers again leads there in any number of steps. -/
theorem run_of_step_fixed {s t : State} (h : step s = .next t) (ht : step t = .next t) (n : Nat) :
    run (n + 1) s = .next t := by
  induction n generalizing s with
  | zero => rw [run_succ 0 h, run_zero]
  | succ n ih => rw [run_succ (n + 1) h, ih ht]

/-- A write without an answer waits. -/
theorem step_waits_of_iWr {s : State} {w : Entry} (hr : s.resetIn = false) (hp : s.ph = .iWr)
    (hw : s.initTable[s.stepIx]? = some w) (hs : s.sendAnswers = []) :
    step s = .next { s with
      txbuf := #v[entryReg w, entryVal w], busReq := some (.send [entryReg w, entryVal w]) } :=
  (step_of_iWr hr hp hw).trans ((unansweredTransactionWaits s).1 hp hs _ _)

/-- An arming write without an answer waits. -/
theorem step_waits_of_pArm {s : State} (hr : s.resetIn = false) (hp : s.ph = .pArm) (hs : s.sendAnswers = []) :
    step s = .next { s with txbuf := s.txbuf.set 0 0x00#8, busReq := some (.send [0x00#8]) } :=
  (step_of_phase hr (by rw [hp]; rfl)).trans (exec_arm_of_nil hp hs)

/-- A read without an answer waits. -/
theorem step_waits_of_pRead {s : State} (hr : s.resetIn = false) (hp : s.ph = .pRead) (hs : s.recvAnswers = []) :
    step s = .next { s with busReq := some (.recv 6) } :=
  (step_of_phase hr (by rw [hp]; rfl)).trans (exec_rdrep_of_nil hp hs)

/-- Settles O26: each wait asks for the same transaction again, so its next state is a fixed point of the step. -/
theorem hangWithoutAnswer : Obligations.HangWithoutAnswer := by
  unfold Obligations.HangWithoutAnswer
  intro s n hr
  refine ⟨fun w hp hw hs => ?_, fun hp hs => ?_, fun hp hs => ?_⟩
  · exact run_of_step_fixed (step_waits_of_iWr hr hp hw hs) (step_waits_of_iWr hr hp hw hs) n
  · have hagain := step_waits_of_pArm (s := setBusReq (some (.send [0x00#8])) (setTx0 0x00#8 s)) hr hp hs
    exact run_of_step_fixed (step_waits_of_pArm hr hp hs) (hagain.trans (by simp [setBusReq, setTx0])) n
  · exact run_of_step_fixed (step_waits_of_pRead hr hp hs) (step_waits_of_pRead hr hp hs) n

/-- Settles O29: fault entry is one update, and in `Faulted` both commands are rejected. -/
theorem faultEntry : Obligations.FaultEntry := by
  unfold Obligations.FaultEntry
  refine ⟨fun _ _ => rfl, fun s hf hp => ⟨?_, fun op rest hr hs => ?_⟩⟩
  · rintro i (rfl | rfl)
    · exact exec_init_of_not_uninitialized hp (by simp [hf])
    · exact exec_poll_of_not_ready hp (by simp [hf])
  · refine ⟨_, (step_cmd_of_faulted hf hr hp hs).trans (congrArg _ ?_), rfl, hf, hp⟩
    exact emit_emit _ _ (setHostScript rest s)

/-- Settles O55: the arrival of the command and the rejection, and nothing else. -/
theorem rejectedCommandStep : Obligations.RejectedCommandStep := by
  unfold Obligations.RejectedCommandStep
  intro s op rest hr hp hs hno
  rw [step_of_rejected hr hp hs hno]
  exact congrArg _ (emit_emit _ _ (setHostScript rest s))

end Sys2Proof.Safety
end

section
/-! What each operation leaves unchanged, and which operation and answer lead to which fault: by the inversion of each
operation in Laws/Exec.lean. -/

namespace Sys2Proof.Safety

open Sys2Proof.Machine

/-- Settles O30: the operations that cannot fail keep the session or make it `Ready`; each failing path of `WR`, `ARM` and
`RDREP` is a row of the table. -/
theorem faultCauses : Obligations.FaultCauses := by
  unfold Obligations.FaultCauses
  intro i s t h hs ht
  cases i with
  | init =>
    obtain ⟨_, ⟨_, rfl⟩ | ⟨_, _, rfl⟩ | ⟨_, _, rfl⟩⟩ := execInit_next h
    · simp [hs] at ht
    · cases ht
    · simp [hs] at ht
  | poll => obtain ⟨_, ⟨_, rfl⟩ | ⟨_, rfl⟩⟩ := execPoll_next h <;> simp [hs] at ht
  | wr reg val =>
    obtain ⟨_, ⟨_, rfl⟩ | ⟨_, _, _, _, rfl⟩ | ⟨rest, ha, rfl⟩ | ⟨k, rest, hk, ha, rfl⟩⟩ := execWr_next h
    · simp [hs] at ht
    · simp [hs] at ht
    · exact .inr (.inl ⟨rfl, ⟨reg, val, rfl⟩, rest, ha⟩)
    · exact .inl ⟨rfl, ⟨reg, val, rfl⟩, k, rest, hk, ha⟩
  | settle =>
    obtain ⟨_, ⟨_, rfl⟩ | ⟨_, rfl⟩⟩ := execSettle_next h
    · cases ht
    · simp [hs] at ht
  | pace =>
    obtain ⟨_, _, _, _, rfl⟩ := execPace_next h
    simp [hs] at ht
  | arm =>
    obtain ⟨_, ⟨_, rfl⟩ | ⟨_, _, _, _, rfl⟩ | ⟨a, rest, ha, hsend, rfl⟩⟩ := execArm_next h
    · simp [hs] at ht
    · simp [hs] at ht
    · refine .inr (.inr (.inl ⟨rfl, rfl, rest, ?_⟩))
      rcases ha with rfl | rfl
      · exact .inl hsend
      · exact .inr hsend
  | rdrep =>
    obtain ⟨_, ⟨_, rfl⟩ | ⟨_, _, _, rfl⟩ | ⟨a, rest, ha, hrecv, rfl⟩⟩ := execRdrep_next h
    · simp [hs] at ht
    · simp [hs] at ht
    · refine .inr (.inr (.inr ⟨rfl, rfl, rest, ?_⟩))
      rcases ha with rfl | ⟨d, rfl, hd⟩
      · exact .inl hrecv
      · exact .inr ⟨d, hd, hrecv⟩
  | decode =>
    obtain ⟨_, rfl⟩ := execDecode_next h
    simp [hs] at ht
  | publish =>
    obtain ⟨_, rfl⟩ := execPublish_next h
    simp [hs] at ht

/-- Settles O33: the paths of `INIT` and of `POLL`. -/
theorem commandFrame : Obligations.CommandFrame := by
  unfold Obligations.CommandFrame
  rintro i s t (rfl | rfl) h
  · obtain ⟨_, ⟨_, rfl⟩ | ⟨hu, _, rfl⟩ | ⟨hu, _, rfl⟩⟩ := execInit_next h
    · simp
    · simp [hu]
    · simp [hu]
  · obtain ⟨_, ⟨_, rfl⟩ | ⟨_, rfl⟩⟩ := execPoll_next h <;> simp

/-- Settles O34: the paths of `WR` and of `SETTLE`. -/
theorem initSequencerFrame : Obligations.InitSequencerFrame := by
  unfold Obligations.InitSequencerFrame
  rintro i s t (⟨reg, val, rfl⟩ | rfl) h
  · obtain ⟨_, ⟨_, rfl⟩ | ⟨_, _, _, _, rfl⟩ | ⟨_, _, rfl⟩ | ⟨_, _, _, _, rfl⟩⟩ := execWr_next h <;>
      simp +contextual [txbuf_after_wr]
  · obtain ⟨_, ⟨_, rfl⟩ | ⟨_, rfl⟩⟩ := execSettle_next h <;> simp

/-- Settles O35: the paths of `PACE`, of `ARM` and of `RDREP`. -/
theorem pollCycleFrame : Obligations.PollCycleFrame := by
  unfold Obligations.PollCycleFrame
  rintro i s t (rfl | rfl | rfl) h
  · obtain ⟨_, _, _, _, rfl⟩ := execPace_next h
    simp
  · obtain ⟨_, ⟨_, rfl⟩ | ⟨_, _, _, _, rfl⟩ | ⟨_, _, _, _, rfl⟩⟩ := execArm_next h <;> simp
  · obtain ⟨_, ⟨_, rfl⟩ | ⟨_, _, _, rfl⟩ | ⟨_, _, _, _, rfl⟩⟩ := execRdrep_next h <;> simp

/-- Settles O36: `DECODE` and `PUBLISH` have one path each. -/
theorem decodePublishFrame : Obligations.DecodePublishFrame := by
  unfold Obligations.DecodePublishFrame
  rintro i s t (rfl | rfl) h
  · obtain ⟨_, rfl⟩ := execDecode_next h
    simp
  · obtain ⟨_, rfl⟩ := execPublish_next h
    simp

/-- Settles O45: each success path sets the least count, and the premise on the event just added the greatest. -/
theorem boundedTransportGivesExactCounts : Obligations.BoundedTransportGivesExactCounts := by
  unfold Obligations.BoundedTransportGivesExactCounts
  intro s t k rest hs hb
  constructor
  · intro reg val h hp
    obtain ⟨hiWr, ⟨hn, _⟩ | ⟨j, rest', hj, hs', rfl⟩ | ⟨_, _, rfl⟩ | ⟨_, _, _, _, rfl⟩⟩ := execWr_next h
    · simp [hn] at hs
    · obtain ⟨⟨rfl⟩, _⟩ := List.cons.inj (hs.symm.trans hs')
      have hle : k ≤ 2 := hb (.tx [reg, val] (.count k)) (by simp)
      exact Nat.le_antisymm hle hj
    · cases hp
    · cases hp
  · intro h hp
    obtain ⟨hpArm, ⟨hn, _⟩ | ⟨j, rest', hj, hs', rfl⟩ | ⟨_, _, _, _, rfl⟩⟩ := execArm_next h
    · simp [hn] at hs
    · obtain ⟨⟨rfl⟩, _⟩ := List.cons.inj (hs.symm.trans hs')
      have hle : k ≤ 1 := hb (.tx [0x00#8] (.count k)) (by simp)
      exact Nat.le_antisymm hle hj
    · cases hp

end Sys2Proof.Safety
end

section
/-! What each step keeps, and who writes which register: by the paths of `StepTo`. -/

namespace Sys2Proof.Machine

/-- No step writes the table (R70). -/
theorem StepTo.initTable_eq {s t : State} (h : StepTo s t) : t.initTable = s.initTable := by
  cases h <;> simp

/-- Events are added at the end only (R65). -/
theorem StepTo.trace_extends {s t : State} (h : StepTo s t) : s.trace <+: t.trace := by
  cases h <;> simp

/-- The host's moves are taken from the front, in `IDLE` (R97). -/
theorem StepTo.hostScript_suffix {s t : State} (h : StepTo s t) : t.hostScript <:+ s.hostScript := by
  cases h with
  | reset rest _ _ hs | initRejected rest _ _ hs | initEmpty rest _ _ hs | initStarted rest _ _ hs
  | pollRejected rest _ _ hs | pollStarted rest _ _ hs => simp [hs]
  | _ => simp

/-- The answers to sends are taken from the front, by a transaction (R51). -/
theorem StepTo.sendAnswers_suffix {s t : State} (h : StepTo s t) : t.sendAnswers <:+ s.sendAnswers := by
  cases h with
  | wrDone _ _ rest _ _ hs | wrShort _ _ rest _ _ hs | wrErr _ rest _ _ hs | armDone _ rest _ hs | armFails _ rest _ hs =>
    simp [hs]
  | _ => simp

/-- The answers to receives are taken from the front, by a transaction (R52). -/
theorem StepTo.recvAnswers_suffix {s t : State} (h : StepTo s t) : t.recvAnswers <:+ s.recvAnswers := by
  cases h with
  | readDone r rest _ hs | readFails _ rest _ hs => simp [hs]
  | _ => simp

/-- No step changes the source of free values, and none moves its counter back (log 7, log 31). -/
theorem StepTo.freeSource_eq_and_freeIx_le {s t : State} (h : StepTo s t) :
    t.freeSource = s.freeSource ∧ s.freeIx ≤ t.freeIx := by
  cases h <;> simp

/-- `SETTLE` advances `STEP` after its delay (R111). -/
theorem StepTo.stepIx_of_iSettle {s t : State} (h : StepTo s t) (hp : s.ph = .iSettle) :
    t.stepIx = s.stepIx + 1 ∧ ∃ es, t.trace = s.trace ++ .delay 1000 :: es := by
  cases h with
  | settleLast | settleNext => simp
  | _ => exfalso; simp_all

/-- The phases other than `I_SETTLE` and `IDLE` leave `STEP` (R28). -/
theorem StepTo.stepIx_eq_of_busy {s t : State} (h : StepTo s t) (hs : s.ph ≠ .iSettle) (hi : s.ph ≠ .idle) :
    t.stepIx = s.stepIx := by
  cases h with
  | resetIn _ hp | reset _ _ hp | initEmpty _ _ hp | initStarted _ _ hp => exact absurd hp hi
  | settleLast hp | settleNext hp => exact absurd hp hs
  | _ => simp

end Sys2Proof.Machine

namespace Sys2Proof.Safety

open Sys2Proof.Machine

/-- Settles O37: by the paths of a step. -/
theorem tableNeverWritten : Obligations.TableNeverWritten := by
  unfold Obligations.TableNeverWritten
  intro s t h
  exact (step_to h).initTable_eq

/-- Settles O38: the trace grows at its end, and each list of inputs is used from its front. -/
theorem traceOnlyGrows : Obligations.TraceOnlyGrows := by
  unfold Obligations.TraceOnlyGrows
  intro s t h
  obtain ⟨es, hes⟩ := (step_to h).trace_extends
  obtain ⟨moves, hmoves⟩ := (step_to h).hostScript_suffix
  obtain ⟨sends, hsends⟩ := (step_to h).sendAnswers_suffix
  obtain ⟨recvs, hrecvs⟩ := (step_to h).recvAnswers_suffix
  exact ⟨⟨es, hes.symm⟩, ⟨moves, hmoves.symm⟩, ⟨sends, hsends.symm⟩, recvs, hrecvs.symm⟩

/-- Settles O39: the paths that write `SESSION` are the two resets, the two ends of an `INIT` and the four faults. -/
theorem sessionWriters : Obligations.SessionWriters := by
  unfold Obligations.SessionWriters
  intro s t h
  cases step_to h with
  | resetIn | reset => exact .inr (.inl ⟨rfl, rfl⟩)
  | initEmpty rest _ hp _ _ hn => exact .inr (.inr (.inl ⟨rfl, .inr ⟨hp, hn, by simp⟩⟩))
  | settleLast hp => exact .inr (.inr (.inl ⟨rfl, .inl ⟨hp, by simp⟩⟩))
  | wrShort _ _ _ hp | wrErr _ _ hp | armFails _ _ hp | readFails _ _ hp =>
    exact .inr (.inr (.inr ⟨rfl, by simp [hp], _, _, rfl, List.append_assoc s.trace [_] _⟩))
  | _ => exact .inl (by simp)

/-- Settles O40: the paths that write `REASON` are the two resets and the four faults. -/
theorem reasonWriters : Obligations.ReasonWriters := by
  unfold Obligations.ReasonWriters
  intro s t h
  cases step_to h with
  | resetIn | reset => exact .inr (.inl ⟨rfl, rfl⟩)
  | wrShort | wrErr | armFails | readFails => exact .inr (.inr ⟨_, _, rfl, rfl, List.append_assoc s.trace [_] _⟩)
  | _ => exact .inl (by simp)

/-- Settles O41: outside `IDLE` the phase decides; in `IDLE` the request does. -/
theorem stepWriters : Obligations.StepWriters := by
  unfold Obligations.StepWriters
  intro s t h
  refine ⟨(step_to h).stepIx_of_iSettle, fun hp hreq => ?_, fun hp hr hcmd hs => ?_, (step_to h).stepIx_eq_of_busy,
    fun hp hr hreset hcmd => ?_⟩
  · cases step_to h with
    | resetIn | reset => exact ⟨rfl, rfl⟩
    | _ => simp_all
  · cases step_to h with
    | initEmpty | initStarted => simp
    | _ => simp_all
  · cases step_to h with
    | wait | initRejected | pollRejected | pollStarted => rfl
    | _ => simp_all

/-- Settles O42: the paths that write `RXBUF` are the two resets and the read of six bytes. -/
theorem rxbufWriters : Obligations.RxbufWriters := by
  unfold Obligations.RxbufWriters
  intro s t h
  cases step_to h with
  | resetIn | reset => exact .inr (.inl rfl)
  | readDone r rest hp hs => exact .inr (.inr ⟨hp, rfl, by simp, rest, hs, rfl⟩)
  | _ => exact .inl (by simp)

/-- Settles O56: `PACE` uses the value at the counter and moves the counter on. -/
theorem drawsAreTheInstancesOwn : Obligations.DrawsAreTheInstancesOwn := by
  unfold Obligations.DrawsAreTheInstancesOwn
  intro s t h
  obtain ⟨hsource, hix⟩ := (step_to h).freeSource_eq_and_freeIx_le
  refine ⟨hsource, hix, fun hp => ?_⟩
  have hr : s.resetIn = false := by
    by_contra hr
    rw [resetDuringCommandRefused s (by simpa using hr) (by simp [hp])] at h
    cases h
  rw [step_of_phase hr (i := .pace) (by rw [hp]; rfl)] at h
  obtain rfl := execPace_delay h
  exact ⟨rfl, rfl⟩

end Sys2Proof.Safety
end

section
/-! A `Faulted` session, step by step (R202 to R204). -/

namespace Sys2Proof.Machine

/-- A step in `IDLE` of a `Faulted` session waits, rejects a command, or is a `RESET`. -/
theorem StepTo.of_faulted {s t : State} (h : StepTo s t) (hf : s.session = .faulted) (hp : s.ph = .idle) :
    t = s ∨ (∃ op rest, t = emit (.rsp .rejected) (taken op rest s)) ∨
      ∃ u, u.trace = s.trace ∧ t = constructSession u := by
  cases h with
  | wait => exact .inl rfl
  | initRejected | pollRejected => exact .inr (.inl ⟨_, _, rfl⟩)
  | resetIn | reset => exact .inr (.inr ⟨_, by rfl, rfl⟩)
  | _ => simp_all

/-- In `IDLE`, without a reset, a `Faulted` session takes a step that waits or rejects a command. -/
theorem step_of_faulted {s : State} (hf : s.session = .faulted) (hp : s.ph = .idle) (hr : s.resetIn = false)
    (hno : HostMove.reset ∉ s.hostScript) :
    step s = .next s ∨ ∃ op rest, s.hostScript = .cmd op :: rest ∧
      step s = .next (emit (.rsp .rejected) (taken op rest s)) := by
  cases hs : s.hostScript with
  | nil => exact .inl (step_of_wait hr hp hs)
  | cons move rest =>
    cases move with
    | reset => simp [hs] at hno
    | cmd op => exact .inr ⟨op, rest, rfl, step_cmd_of_faulted hf hr hp hs⟩

end Sys2Proof.Machine

namespace Sys2Proof.Safety

open Sys2Proof.Machine

/-- Settles O31: a `Faulted` session is in `IDLE`, where a step waits, rejects or is a `RESET`. -/
theorem onlyResetLeavesFaulted : Obligations.OnlyResetLeavesFaulted := by
  unfold Obligations.OnlyResetLeavesFaulted
  intro s t hinv hf h
  rcases (step_to h).of_faulted hf (hinv.faultedIdle hf) with rfl | ⟨op, rest, rfl⟩ | ⟨u, hu, rfl⟩
  · exact .inl ⟨hf, rfl⟩
  · exact .inl ⟨hf, rfl⟩
  · exact .inr ⟨by simp [hu], rfl, rfl, rfl, rfl⟩

/-- A run of a `Faulted` session in `IDLE`, without a reset, only takes commands and answers them (R202). -/
theorem run_of_faulted (n : Nat) {s : State} (hf : s.session = .faulted) (hp : s.ph = .idle) (hr : s.resetIn = false)
    (hno : HostMove.reset ∉ s.hostScript) :
    ∃ t es, run n s = .next t ∧ t.session = .faulted ∧ t.reason = s.reason ∧ t.ph = .idle ∧
      t.trace = s.trace ++ es ∧ ∀ e ∈ es, isActivity e = false := by
  induction n generalizing s with
  | zero => exact ⟨s, [], rfl, hf, rfl, hp, by simp, by simp⟩
  | succ n ih =>
    rcases step_of_faulted hf hp hr hno with h | ⟨op, rest, hs, h⟩
    · rw [run_succ n h]
      exact ih hf hp hr hno
    · obtain ⟨t, es, hrun, hsession, hreason, hph, htrace, hes⟩ :=
        ih (s := emit (.rsp .rejected) (taken op rest s)) hf hp hr (by simpa [hs] using hno)
      refine ⟨t, .cmd op :: .rsp .rejected :: es, (run_succ n h).trans hrun, hsession, hreason, hph, ?_, ?_⟩
      · simp [htrace]
      · simpa [isActivity] using hes

/-- Settles O32: a `Faulted` session is in `IDLE`, and `run_of_faulted` applies. -/
theorem faultedRunIsSilent : Obligations.FaultedRunIsSilent := by
  unfold Obligations.FaultedRunIsSilent
  intro n s hinv hf hr hno
  exact run_of_faulted n hf (hinv.faultedIdle hf) hr hno

end Sys2Proof.Safety
end

section
/-! The invariants of R37: what they say in each kind of phase, and that every step keeps them. -/

namespace Sys2Proof.Safety

open Sys2Proof.Machine

variable {s : State}

/-! ### The invariants in `IDLE`, inside `INIT` and inside `POLL` -/

/-- In `IDLE` the invariants speak of `REASON`, `STEP` and the transport only. -/
theorem Inv.of_idle (hp : s.ph = .idle) (hreason : s.reason = none ↔ s.session ≠ .faulted)
    (hstep : s.stepIx ≤ s.initTable.length) (hbus : s.busReq = none) : Inv s where
  reasonNone := hreason
  initPhase := by simp [hp]
  pollPhase := by simp [hp, inPoll]
  faultedIdle _ := hp
  stepLe := hstep
  outstanding := by simp [hbus]

/-- Inside `INIT` the session is `Uninitialized` and `STEP` names an entry. -/
theorem Inv.of_init (hp : s.ph = .iWr ∨ s.ph = .iSettle) (hsession : s.session = .uninitialized) (hreason : s.reason = none)
    (hstep : s.stepIx < s.initTable.length)
    (hbus : ∀ r, s.busReq = some r → s.ph = .iWr ∧ r = .send [s.txbuf[0], s.txbuf[1]]) : Inv s where
  reasonNone := by simp [hreason, hsession]
  initPhase _ := ⟨hsession, hstep⟩
  pollPhase := by rcases hp with hp | hp <;> simp [hp, inPoll]
  faultedIdle := by simp [hsession]
  stepLe := hstep.le
  outstanding r hr := .inl (hbus r hr)

/-- Inside `POLL` the session is `Ready`. -/
theorem Inv.of_poll (hp : inPoll s.ph = true) (hsession : s.session = .ready) (hreason : s.reason = none)
    (hstep : s.stepIx ≤ s.initTable.length)
    (hbus : ∀ r, s.busReq = some r → (s.ph = .pArm ∧ r = .send [s.txbuf[0]]) ∨ (s.ph = .pRead ∧ r = .recv 6)) :
    Inv s where
  reasonNone := by simp [hreason, hsession]
  initPhase := by rintro (h | h) <;> simp [h, inPoll] at hp
  pollPhase _ := hsession
  faultedIdle := by simp [hsession]
  stepLe := hstep
  outstanding r hr := .inr (hbus r hr)

/-- Nothing is outstanding in a phase that issues no transaction. -/
theorem Inv.busReq_eq_none (h : Inv s) (hp : s.ph ≠ .iWr ∧ s.ph ≠ .pArm ∧ s.ph ≠ .pRead) : s.busReq = none := by
  obtain ⟨h1, h2, h3⟩ := hp
  refine Option.eq_none_iff_forall_ne_some.mpr fun r hr => ?_
  rcases h.outstanding r hr with ⟨h', _⟩ | ⟨h', _⟩ | ⟨h', _⟩ <;> contradiction

/-- Outside `Faulted` there is no reason. -/
theorem Inv.reason_eq_none (h : Inv s) {v : Session} (hs : s.session = v) (hv : v ≠ .faulted) : s.reason = none :=
  h.reasonNone.mpr (hs ▸ hv)

/-! ### What the steps share -/

/-- A new session meets the invariants, whatever was before. -/
theorem inv_constructSession (s : State) : Inv (constructSession s) :=
  .of_idle rfl (by simp) (by simp) rfl

/-- Fault entry meets the invariants once the transport has answered. -/
theorem inv_raiseFault (e : ErrKind) (hstep : s.stepIx ≤ s.initTable.length) (hbus : s.busReq = none) :
    Inv (raiseFault e s) :=
  .of_idle rfl (by simp) (by simpa using hstep) (by simpa using hbus)

/-- Settles O48: the next state is in `IDLE`, inside `INIT` or inside `POLL`, and the old state's clauses give the new one's. -/
theorem invKept : Obligations.InvKept := by
  unfold Obligations.InvKept
  intro s t h hstep
  cases step_to hstep with
  | wait => exact h
  | resetIn | reset => exact inv_constructSession _
  | initRejected _ _ hp | pollRejected _ _ hp =>
    have hbus := h.busReq_eq_none (by simp [hp])
    exact .of_idle (by simpa using hp) (by simpa using h.reasonNone) (by simpa using h.stepLe) (by simpa using hbus)
  | initEmpty _ _ hp _ hs =>
    have hbus := h.busReq_eq_none (by simp [hp])
    exact .of_idle (by simpa using hp) (by simp [h.reason_eq_none hs]) (by simp) (by simpa using hbus)
  | initStarted _ _ hp _ hs hn =>
    have hbus := h.busReq_eq_none (by simp [hp])
    exact .of_init (by simp) (by simpa using hs) (by simp [h.reason_eq_none hs])
      (by simpa [List.length_pos_iff] using hn) (by simp [hbus])
  | pollStarted _ _ hp _ hs =>
    have hbus := h.busReq_eq_none (by simp [hp])
    exact .of_poll (by simp [inPoll]) (by simpa using hs) (by simp [h.reason_eq_none hs]) (by simpa using h.stepLe)
      (by simp [hbus])
  | wrWaits w hp =>
    obtain ⟨hs, hlt⟩ := h.initPhase (.inl hp)
    exact .of_init (by simp [hp]) (by simpa using hs) (by simp [h.reason_eq_none hs]) (by simpa using hlt) (by simp [hp])
  | wrDone w k rest hp =>
    obtain ⟨hs, hlt⟩ := h.initPhase (.inl hp)
    exact .of_init (by simp) (by simpa using hs) (by simp [h.reason_eq_none hs]) (by simpa using hlt) (by simp)
  | wrShort | wrErr | armFails | readFails => exact inv_raiseFault _ (by simpa using h.stepLe) (by simp)
  | settleLast hp hl =>
    obtain ⟨hs, hlt⟩ := h.initPhase (.inr hp)
    have hbus := h.busReq_eq_none (by simp [hp])
    exact .of_idle (by simp) (by simp [h.reason_eq_none hs]) (by simpa using hlt) (by simpa using hbus)
  | settleNext hp hl =>
    obtain ⟨hs, hlt⟩ := h.initPhase (.inr hp)
    have hbus := h.busReq_eq_none (by simp [hp])
    exact .of_init (by simp) (by simpa using hs) (by simp [h.reason_eq_none hs]) (by simp; omega) (by simp [hbus])
  | pace d hp | decode hp =>
    have hs := h.pollPhase (by simp [hp, inPoll])
    have hbus := h.busReq_eq_none (by simp [hp])
    exact .of_poll (by simp [inPoll]) (by simpa using hs) (by simp [h.reason_eq_none hs]) (by simpa using h.stepLe)
      (by simp [hbus])
  | armWaits hp | readWaits hp | armDone k rest hp | readDone r rest hp =>
    have hs := h.pollPhase (by simp [hp, inPoll])
    exact .of_poll (by simp [hp, inPoll]) (by simpa using hs) (by simp [h.reason_eq_none hs]) (by simpa using h.stepLe)
      (by simp [hp])
  | publish hp =>
    have hbus := h.busReq_eq_none (by simp [hp])
    exact .of_idle (by simp) (by simpa using h.reasonNone) (by simpa using h.stepLe) (by simpa using hbus)

end Sys2Proof.Safety
end

section
/-! The history of the command in progress (R112, R136): what it says in each phase, and that every step keeps it. -/

namespace Sys2Proof.Safety

open Sys2Proof.Machine

/-! ### The events of completed init steps -/

/-- One more completed step: its write and its settle delay come last. -/
theorem stepsEvents_concat {table : List Entry} {as : List SendAnswer} {w : Entry} (a : SendAnswer)
    (hw : table[as.length]? = some w) :
    stepsEvents table (as ++ [a]) = stepsEvents table as ++ [writeEvent w a, .delay 1000] := by
  induction as generalizing table with
  | nil =>
    cases table with
    | nil => simp at hw
    | cons x ws =>
      obtain rfl : x = w := by simpa using hw
      cases ws <;> rfl
  | cons b as ih =>
    cases table with
    | nil => simp at hw
    | cons x ws => simpa [stepsEvents] using ih (by simpa using hw)

/-! ### The history, phase by phase -/

variable {s : State}

theorem history_of_idle (hp : s.ph = .idle) : History s := by
  simp [History, hp]

theorem history_iWr (hp : s.ph = .iWr) : History s ↔ ∃ before as, as.length = s.stepIx ∧ (∀ a ∈ as, accepts 2 a) ∧
    s.trace = before ++ .cmd 0#1 :: stepsEvents s.initTable as := by
  rw [History, hp]

theorem history_iSettle (hp : s.ph = .iSettle) : History s ↔ ∃ before as a w, as.length = s.stepIx ∧
    (∀ x ∈ as, accepts 2 x) ∧ accepts 2 a ∧ s.initTable[s.stepIx]? = some w ∧
    s.trace = before ++ .cmd 0#1 :: (stepsEvents s.initTable as ++ [writeEvent w a]) := by
  rw [History, hp]

theorem history_pPace (hp : s.ph = .pPace) : History s ↔ ∃ before, s.trace = before ++ [Event.cmd 1#1] := by
  rw [History, hp]

theorem history_pArm (hp : s.ph = .pArm) : History s ↔ ∃ before t, 10000 ≤ t ∧ t ≤ 20000 ∧
    s.trace = before ++ [Event.cmd 1#1, .delay t] := by
  rw [History, hp]

theorem history_pRead (hp : s.ph = .pRead) : History s ↔ ∃ before t a, 10000 ≤ t ∧ t ≤ 20000 ∧ accepts 1 a ∧
    s.trace = before ++ [Event.cmd 1#1, .delay t, .tx [0x00#8] a] := by
  rw [History, hp]

theorem history_pDecode (hp : s.ph = .pDecode) : History s ↔ ∃ before t a, 10000 ≤ t ∧ t ≤ 20000 ∧ accepts 1 a ∧
    s.trace = before ++ [Event.cmd 1#1, .delay t, .tx [0x00#8] a, .rx 6 (.data s.rxbuf.toList)] := by
  rw [History, hp]

theorem history_pPublish (hp : s.ph = .pPublish) : History s ↔ ∃ before t a, 10000 ≤ t ∧ t ≤ 20000 ∧ accepts 1 a ∧
    s.btn = ⟨!s.rxbuf[5].getLsbD 0, !s.rxbuf[5].getLsbD 1⟩ ∧
    s.trace = before ++ [Event.cmd 1#1, .delay t, .tx [0x00#8] a, .rx 6 (.data s.rxbuf.toList)] := by
  rw [History, hp]

/-- The history after a settle delay: one more step of the table has completed, with its entry and its answer (R111, R112). -/
theorem History.settled (hp : s.ph = .iSettle) (h : History s) :
    ∃ before as, as.length = s.stepIx + 1 ∧ (∀ a ∈ as, accepts 2 a) ∧
      s.trace ++ [Event.delay 1000] = before ++ .cmd 0#1 :: stepsEvents s.initTable as := by
  obtain ⟨before, as, a, w, hlen, has, ha, hw, htrace⟩ := (history_iSettle hp).mp h
  refine ⟨before, as ++ [a], by simp [hlen], by simpa [or_imp, forall_and] using ⟨has, ha⟩, ?_⟩
  rw [htrace, stepsEvents_concat a (hlen ▸ hw)]
  simp

/-- Settles O51: each path into a phase other than `IDLE` extends the history of the phase before it by the event it adds. -/
theorem historyKept : Obligations.HistoryKept := by
  unfold Obligations.HistoryKept
  intro s t h hstep
  cases step_to hstep with
  | wait => exact h
  | resetIn | reset | settleLast | wrShort | wrErr | armFails | readFails | publish => exact history_of_idle rfl
  | initRejected _ _ hp | initEmpty _ _ hp | pollRejected _ _ hp => exact history_of_idle (by simpa using hp)
  | initStarted => exact (history_iWr rfl).mpr ⟨s.trace, [], rfl, by simp, by simp [stepsEvents]⟩
  | pollStarted => exact (history_pPace rfl).mpr ⟨s.trace, rfl⟩
  | wrWaits w hp =>
    obtain ⟨before, as, hlen, has, htrace⟩ := (history_iWr hp).mp h
    exact (history_iWr (by simpa using hp)).mpr ⟨before, as, by simpa using hlen, has, by simpa using htrace⟩
  | wrDone w k rest hp hw _ hk =>
    obtain ⟨before, as, hlen, has, htrace⟩ := (history_iWr hp).mp h
    refine (history_iSettle rfl).mpr ⟨before, as, .count k, w, by simpa using hlen, has, hk, by simpa using hw, ?_⟩
    simp [htrace, writeEvent, entryReg, entryVal]
  | settleNext hp =>
    obtain ⟨before, as, hlen, has, htrace⟩ := h.settled hp
    exact (history_iWr rfl).mpr ⟨before, as, by simpa using hlen, has, by simpa using htrace⟩
  | pace d hp hlo hhi =>
    obtain ⟨before, htrace⟩ := (history_pPace hp).mp h
    exact (history_pArm rfl).mpr ⟨before, d, hlo, hhi, by simp [htrace]⟩
  | armWaits hp =>
    obtain ⟨before, d, hlo, hhi, htrace⟩ := (history_pArm hp).mp h
    exact (history_pArm (by simpa using hp)).mpr ⟨before, d, hlo, hhi, by simpa using htrace⟩
  | armDone k rest hp _ hk =>
    obtain ⟨before, d, hlo, hhi, htrace⟩ := (history_pArm hp).mp h
    exact (history_pRead rfl).mpr ⟨before, d, .count k, hlo, hhi, hk, by simp [htrace]⟩
  | readWaits hp =>
    obtain ⟨before, d, a, hlo, hhi, ha, htrace⟩ := (history_pRead hp).mp h
    exact (history_pRead (by simpa using hp)).mpr ⟨before, d, a, hlo, hhi, ha, by simpa using htrace⟩
  | readDone r rest hp =>
    obtain ⟨before, d, a, hlo, hhi, ha, htrace⟩ := (history_pRead hp).mp h
    exact (history_pDecode rfl).mpr ⟨before, d, a, hlo, hhi, ha, by simp [htrace]⟩
  | decode hp =>
    obtain ⟨before, d, a, hlo, hhi, ha, htrace⟩ := (history_pDecode hp).mp h
    exact (history_pPublish rfl).mpr ⟨before, d, a, hlo, hhi, ha, by simp [decodeReport_eq], by simpa using htrace⟩

/-- Settles O43: `Ready` is entered from the empty table, or by the last settle delay, where the history names all
N writes. -/
theorem readyOnlyByCompleteInit : Obligations.ReadyOnlyByCompleteInit := by
  unfold Obligations.ReadyOnlyByCompleteInit
  intro s t _ h hstep hs ht
  cases step_to hstep with
  | initEmpty rest _ _ _ _ hn => exact ⟨s.trace, [], by simp [hn], by simp, by simp [hn, stepsEvents]⟩
  | settleLast hp hl =>
    obtain ⟨before, as, hlen, has, htrace⟩ := h.settled hp
    exact ⟨before, as, by simpa [hl] using hlen, has, by simp [htrace]⟩
  | _ => simp_all

/-- Settles O44: in `P_DECODE` the history ends with the read that filled `RXBUF`. -/
theorem decodeReadsFreshReport : Obligations.DecodeReadsFreshReport := by
  unfold Obligations.DecodeReadsFreshReport
  intro s h hp hr
  obtain ⟨before, d, a, _, _, _, htrace⟩ := (history_pDecode hp).mp h
  have hstep := (step_of_phase hr (by rw [hp]; rfl)).trans (exec_decode_of_pDecode hp)
  refine ⟨before ++ [Event.cmd 1#1, .delay d, .tx [0x00#8] a], s.rxbuf.toList, _, ?_, rfl, hstep, ?_, ?_⟩
  · simp [htrace]
  · simp
  · simp [decodeReport_eq]

end Sys2Proof.Safety
end

section
/-! The events a step adds: the allowed ones, and the balance of commands and responses. -/

namespace Sys2Proof.Safety

open Sys2Proof.Machine

/-- The write of a table entry is an allowed event (R55). -/
theorem eventOk_write {table : List Entry} {i : Nat} {w : Entry} (hw : table[i]? = some w) (a : SendAnswer) :
    eventOk table (.tx [entryReg w, entryVal w] a) :=
  .inr ⟨w, List.mem_of_getElem? hw, rfl⟩

/-- A response is always an allowed event. -/
@[simp] theorem eventOk_rsp (table : List Entry) (r : Response) : eventOk table (.rsp r) := trivial

/-- Settles O50: the writes are the entry fetched and the arming byte, and the draw lies within its bounds. -/
theorem eventsOkKept : Obligations.EventsOkKept := by
  unfold Obligations.EventsOkKept
  intro s t h hstep
  unfold EventsOk at h ⊢
  cases step_to hstep with
  | wrDone w k _ _ hw | wrShort w k _ _ hw =>
    have hok := eventOk_write hw (.count k)
    simpa [or_imp, forall_and, hok] using h
  | wrErr w _ _ hw =>
    have hok := eventOk_write hw .err
    simpa [or_imp, forall_and, hok] using h
  | pace d _ hlo hhi => simpa [or_imp, forall_and, hlo, hhi, eventOk] using h
  | _ => simpa [or_imp, forall_and, eventOk] using h

/-- Settles O49: by whether the step starts a command, ends one, does both or neither. -/
theorem responsesBalanceKept : Obligations.ResponsesBalanceKept := by
  unfold Obligations.ResponsesBalanceKept
  intro s t h hstep
  unfold ResponsesBalance at h ⊢
  cases step_to hstep with
  | wait => exact h
  | resetIn _ hp | reset _ _ hp => simpa [hp, isRsp, isCmd] using h
  | initRejected _ _ hp | initEmpty _ _ hp | pollRejected _ _ hp =>
    simpa [hp, isRsp, isCmd, List.countP_cons] using h
  | initStarted _ _ hp | pollStarted _ _ hp => simpa [hp, isRsp, isCmd] using h
  | wrShort _ _ _ hp | wrErr _ _ hp | armFails _ _ hp | readFails _ _ hp | settleLast hp | publish hp =>
    simpa [hp, isRsp, isCmd] using h
  | wrWaits _ hp | wrDone _ _ _ hp | settleNext hp | pace _ hp | armWaits hp | armDone _ _ hp | readWaits hp
  | readDone _ _ hp | decode hp => simpa [hp, isRsp, isCmd] using h

end Sys2Proof.Safety
end

section
/-! Progress: a good state always has a step, and an answered command moves on. -/

namespace Sys2Proof.Machine

/-- A command in `IDLE` always has a next state. -/
theorem exec_command_next {i : Instr} {s : State} (hi : i = .init ∨ i = .poll) (hp : s.ph = .idle) :
    ∃ t, exec i s = .next t := by
  rcases hi with rfl | rfl
  · by_cases hs : s.session = .uninitialized
    · by_cases hn : s.initTable = []
      · exact ⟨_, exec_init_of_empty hp hs hn⟩
      · exact ⟨_, exec_init_of_nonempty hp hs hn⟩
    · exact ⟨_, exec_init_of_not_uninitialized hp hs⟩
  · by_cases hs : s.session = .ready
    · exact ⟨_, exec_poll_of_ready hp hs⟩
    · exact ⟨_, exec_poll_of_not_ready hp hs⟩

/-- In `IDLE` a step always has a next state. -/
theorem step_next_of_idle {s : State} (hr : s.resetIn = false) (hp : s.ph = .idle) : ∃ t, step s = .next t := by
  cases hs : s.hostScript with
  | nil => exact ⟨_, step_of_wait hr hp hs⟩
  | cons move rest =>
    cases move with
    | reset => exact ⟨_, step_of_reset hr hp hs⟩
    | cmd op =>
      rcases op_eq_zero_or_one op with rfl | rfl
      · rw [step_of_cmd hr hp hs rfl]
        exact exec_command_next (.inl rfl) hp
      · rw [step_of_cmd hr hp hs rfl]
        exact exec_command_next (.inr rfl) hp

/-- `WR`, with an answer or without, has a next state in its phase. -/
theorem exec_wr_next {s : State} (hp : s.ph = .iWr) (reg val : Byte) : ∃ t, exec (.wr reg val) s = .next t := by
  cases hs : s.sendAnswers with
  | nil => exact ⟨_, exec_wr_of_nil hp hs reg val⟩
  | cons a rest => exact ⟨_, exec_wr_of_cons hp hs reg val⟩

/-- `ARM`, with an answer or without, has a next state in its phase. -/
theorem exec_arm_next {s : State} (hp : s.ph = .pArm) : ∃ t, exec .arm s = .next t := by
  cases hs : s.sendAnswers with
  | nil => exact ⟨_, exec_arm_of_nil hp hs⟩
  | cons a rest => exact ⟨_, exec_arm_of_cons hp hs⟩

/-- `RDREP`, with an answer or without, has a next state in its phase. -/
theorem exec_rdrep_next {s : State} (hp : s.ph = .pRead) : ∃ t, exec .rdrep s = .next t := by
  cases hs : s.recvAnswers with
  | nil => exact ⟨_, exec_rdrep_of_nil hp hs⟩
  | cons a rest => exact ⟨_, exec_rdrep_of_cons hp hs⟩

/-- `SETTLE` has a next state in its phase. -/
theorem exec_settle_next {s : State} (hp : s.ph = .iSettle) : ∃ t, exec .settle s = .next t := by
  by_cases hl : s.stepIx + 1 = s.initTable.length
  · exact ⟨_, exec_settle_of_last hp hl⟩
  · exact ⟨_, exec_settle_of_more hp hl⟩

/-- Where the reset input was not asserted during a command, a step leaves it not asserted (log 1). -/
theorem StepTo.resetIn_eq_false {s t : State} (h : StepTo s t) (hidle : s.resetIn = true → s.ph = .idle) :
    t.resetIn = false := by
  cases h with
  | resetIn | reset => rfl
  | wait hr | initRejected _ hr | initEmpty _ hr | initStarted _ hr | pollRejected _ hr | pollStarted _ hr => simpa using hr
  | _ => exact Bool.eq_false_iff.mpr fun hr => by simp_all

end Sys2Proof.Machine

namespace Sys2Proof.Safety

open Sys2Proof.Machine

/-- A good state has a step: its phase's operation is in its phase, and in `I_WR` there is an entry to write (R37 b). -/
theorem step_next_of_inv {s : State} (h : Inv s) (hreset : ResetIdle s) : ∃ t, step s = .next t := by
  cases hr : s.resetIn with
  | true => exact ⟨_, step_of_resetIn hr (hreset hr)⟩
  | false =>
    cases hp : s.ph with
    | idle => exact step_next_of_idle hr hp
    | iWr =>
      obtain ⟨_, hlt⟩ := h.initPhase (.inl hp)
      rw [step_of_iWr hr hp (List.getElem?_eq_getElem hlt)]
      exact exec_wr_next hp _ _
    | iSettle => rw [step_of_phase hr (i := .settle) (by rw [hp]; rfl)]; exact exec_settle_next hp
    | pPace =>
      obtain ⟨d, _, _, hpace⟩ := exec_pace_of_pPace hp
      exact ⟨_, (step_of_phase hr (by rw [hp]; rfl)).trans hpace⟩
    | pArm => rw [step_of_phase hr (i := .arm) (by rw [hp]; rfl)]; exact exec_arm_next hp
    | pRead => rw [step_of_phase hr (i := .rdrep) (by rw [hp]; rfl)]; exact exec_rdrep_next hp
    | pDecode => exact ⟨_, (step_of_phase hr (by rw [hp]; rfl)).trans (exec_decode_of_pDecode hp)⟩
    | pPublish => exact ⟨_, (step_of_phase hr (by rw [hp]; rfl)).trans (exec_publish_of_pPublish hp)⟩

/-- Settles O52: the step exists, keeps `Inv`, and leaves the reset input not asserted. -/
theorem goodStatesNeverStop : Obligations.GoodStatesNeverStop := by
  unfold Obligations.GoodStatesNeverStop
  intro s h hreset
  obtain ⟨t, ht⟩ := step_next_of_inv h hreset
  have hr := (step_to ht).resetIn_eq_false hreset
  exact ⟨t, ht, invKept s t h ht, by simp [ResetIdle, hr]⟩

/-- Settles O46: the step exists; it is no path of `IDLE` and no wait, and every other path changes the phase. -/
theorem commandAdvances : Obligations.CommandAdvances := by
  unfold Obligations.CommandAdvances
  rintro s h hr hbusy ⟨hsend, hrecv⟩
  obtain ⟨t, ht⟩ := step_next_of_inv h (by simp [ResetIdle, hr])
  refine ⟨t, ht, ?_⟩
  cases step_to ht with
  | wait _ hp | resetIn _ hp | reset _ _ hp | initRejected _ _ hp | initEmpty _ _ hp | initStarted _ _ hp
  | pollRejected _ _ hp | pollStarted _ _ hp => exact absurd hp hbusy
  | wrWaits w hp _ hs => exact absurd hs (hsend (.inl hp))
  | armWaits hp hs => exact absurd hs (hsend (.inr hp))
  | readWaits hp hs => exact absurd hs (hrecv hp)
  | decode hp => exact ⟨by simp [hp], .inl hp⟩
  | wrDone _ _ _ hp | wrShort _ _ _ hp | wrErr _ _ hp | settleLast hp | settleNext hp | pace _ hp | armDone _ _ hp
  | armFails _ _ hp | readDone _ _ hp | readFails _ _ hp | publish hp => exact ⟨by simp [hp], .inr (by simp)⟩

/-- Settles O47: the reset state is in `IDLE`, with the empty trace. -/
theorem invariantsAtReset : Obligations.InvariantsAtReset := by
  unfold Obligations.InvariantsAtReset
  have hinv (source : Nat) : Inv (State.resetOn source) :=
    .of_idle rfl (by simp [State.resetOn]) (Nat.zero_le _) rfl
  exact ⟨hinv 0, fun source => ⟨hinv source, rfl, by simp [EventsOk, State.resetOn], history_of_idle rfl⟩⟩

end Sys2Proof.Safety
end

section
/-! `INIT` run step by step gives the summary of R171: by induction on the entries still to be written. -/

namespace Sys2Proof.Safety

open Sys2Proof.Machine

/-- The failure `WR` sees in an answer is the summary's (R110, R171). -/
theorem wrFailure_eq_initFailure (a : SendAnswer) : wrFailure a = initFailure a := by
  match a with
  | .err | .count 0 | .count 1 => rfl
  | .count (k + 2) => simp [wrFailure, wrLen, initFailure]

/-- The init write in progress: its entries, from the one `STEP` names on, are `ws`. -/
structure InitRunning (ws : List Entry) (s : State) : Prop where
  resetIn : s.resetIn = false
  ph : s.ph = .iWr
  reason : s.reason = none
  left : s.initTable.drop s.stepIx = ws

/-- `t` is what the summary says of an `INIT` that has the entries `ws` left in `s` (R171). -/
structure InitEnded (ws : List Entry) (s t : State) : Prop where
  ph : t.ph = .idle
  trace : t.trace = s.trace ++ ((bigInit ws s.sendAnswers).1 ++ [.rsp (initResponse (bigInit ws s.sendAnswers).2.1)])
  session : t.session = sessionAfter (bigInit ws s.sendAnswers).2.1
  reason : t.reason = (bigInit ws s.sendAnswers).2.1
  stepIx : t.stepIx = s.stepIx + (bigInit ws s.sendAnswers).2.2
  sendAnswers : t.sendAnswers = s.sendAnswers.drop
    ((bigInit ws s.sendAnswers).2.2 + if (bigInit ws s.sendAnswers).2.1 = none then 0 else 1)
  hostScript : t.hostScript = s.hostScript
  recvAnswers : t.recvAnswers = s.recvAnswers
  rxbuf : t.rxbuf = s.rxbuf
  btn : t.btn = s.btn
  initTable : t.initTable = s.initTable

/-- The state after the write of `w` has been accepted and its settle delay has passed. -/
def settled (w : Entry) (a : SendAnswer) (rest : List SendAnswer) (s : State) : State :=
  setStep (s.stepIx + 1) (emit (.delay 1000) (setPhase .iSettle (sent [entryReg w, entryVal w] a rest (loaded w s))))

variable {s t : State} {w : Entry} {ws : List Entry} {a : SendAnswer} {as : List SendAnswer}

@[simp] theorem settled_reason : (settled w a as s).reason = s.reason := by simp [settled]
@[simp] theorem settled_stepIx : (settled w a as s).stepIx = s.stepIx + 1 := by simp [settled]
@[simp] theorem settled_rxbuf : (settled w a as s).rxbuf = s.rxbuf := by simp [settled]
@[simp] theorem settled_btn : (settled w a as s).btn = s.btn := by simp [settled]
@[simp] theorem settled_initTable : (settled w a as s).initTable = s.initTable := by simp [settled]
@[simp] theorem settled_hostScript : (settled w a as s).hostScript = s.hostScript := by simp [settled]
@[simp] theorem settled_resetIn : (settled w a as s).resetIn = s.resetIn := by simp [settled]
@[simp] theorem settled_sendAnswers : (settled w a as s).sendAnswers = as := by simp [settled]
@[simp] theorem settled_recvAnswers : (settled w a as s).recvAnswers = s.recvAnswers := by simp [settled]
@[simp] theorem settled_trace : (settled w a as s).trace = s.trace ++ [writeEvent w a, .delay 1000] := by
  simp [settled, writeEvent, entryReg, entryVal]

/-! ### The end of the table, a failed write, a completed step -/

/-- With no entry left the `INIT` is done. -/
theorem initEnded_initDone (hreason : s.reason = none) : InitEnded [] s (initDone s) := by
  constructor <;> simp [bigInit, initResponse, sessionAfter, hreason]

/-- A write that fails ends the `INIT` (R113). -/
theorem initEnded_raiseFault {e : ErrKind} (hs : s.sendAnswers = a :: as) (hf : initFailure a = some e) :
    InitEnded (w :: ws) s (raiseFault e (sent [entryReg w, entryVal w] a as (loaded w s))) := by
  constructor <;> simp [bigInit, hs, hf, initResponse, sessionAfter, writeEvent, entryReg, entryVal]

/-- A completed step adds its two events to those of the rest, and uses one answer. -/
theorem InitEnded.cons (hs : s.sendAnswers = a :: as) (hf : initFailure a = none)
    (h : InitEnded ws (settled w a as s) t) : InitEnded (w :: ws) s t := by
  obtain ⟨hph, htrace, hsession, hreason, hstep, hsend, hscript, hrecv, hrx, hbtn, htable⟩ := h
  rw [settled_sendAnswers] at htrace hsession hreason hstep hsend
  have hbig : bigInit (w :: ws) s.sendAnswers = (writeEvent w a :: .delay 1000 :: (bigInit ws as).1,
      (bigInit ws as).2.1, (bigInit ws as).2.2 + 1) := by
    simp [hs, bigInit, hf]
  constructor
  · exact hph
  · simp [hbig, htrace]
  · simp [hbig, hsession]
  · simp [hbig, hreason]
  · simp [hbig, hstep, Nat.add_assoc, Nat.add_comm 1]
  · simp only [hbig]
    rw [hsend, hs, Nat.add_right_comm, List.drop_succ_cons]
  all_goals simp [hscript, hrecv, hrx, hbtn, htable]

/-- The summary does not depend on the phase it is read in. -/
theorem InitEnded.of_setPhase {p : Phase} (h : InitEnded ws (setPhase p s) t) : InitEnded ws s t :=
  ⟨h.ph, h.trace, h.session, h.reason, h.stepIx, h.sendAnswers, h.hostScript, h.recvAnswers, h.rxbuf, h.btn,
    h.initTable⟩

/-! ### The steps -/

/-- The next entry is the one `STEP` names. -/
theorem InitRunning.entry (h : InitRunning (w :: ws) s) : s.initTable[s.stepIx]? = some w := by
  rw [← List.head?_drop, h.left, List.head?_cons]

/-- An answered write goes on by its answer. -/
theorem InitRunning.step_wr (h : InitRunning (w :: ws) s) (hs : s.sendAnswers = a :: as) :
    step s = .next (wrAnswered a (sent [entryReg w, entryVal w] a as (loaded w s))) :=
  (step_of_iWr h.resetIn h.ph h.entry).trans (exec_wr_of_cons h.ph hs _ _)

/-- An accepted write is followed by its settle delay, and then by the next write or the end. -/
theorem InitRunning.run_two (h : InitRunning (w :: ws) s) (hs : s.sendAnswers = a :: as) (hf : initFailure a = none) :
    run 2 s = .next (if ws = [] then initDone (settled w a as s) else setPhase .iWr (settled w a as s)) := by
  have hwr : step s = .next (setPhase .iSettle (sent [entryReg w, entryVal w] a as (loaded w s))) := by
    rw [h.step_wr hs, wrAnswered, wrFailure_eq_initFailure, hf]
  have hlast : s.stepIx + 1 = s.initTable.length ↔ ws = [] := by
    have hlen := congrArg List.length h.left
    rw [List.length_drop, List.length_cons] at hlen
    rw [← List.length_eq_zero_iff]
    omega
  rw [run_succ 1 hwr, run, step_of_phase (i := .settle) (by simpa using h.resetIn) rfl]
  by_cases hws : ws = []
  · rw [exec_settle_of_last rfl (by simpa using hlast.mpr hws), if_pos hws]
    simp [settled]
  · rw [exec_settle_of_more rfl (by simpa using mt hlast.mp hws), if_neg hws]
    simp [settled]

/-- The rest of the table is written next. -/
theorem InitRunning.next (h : InitRunning (w :: ws) s) : InitRunning ws (setPhase .iWr (settled w a as s)) where
  resetIn := by simpa using h.resetIn
  ph := rfl
  reason := by simpa using h.reason
  left := by simpa [List.tail_drop] using congrArg List.tail h.left

/-- The steps of an `INIT` from any entry on lead to the end the summary gives. -/
theorem run_init (hne : ws ≠ []) (h : InitRunning ws s) (ha : initAnswered ws s.sendAnswers = true) :
    ∃ n t, run n s = .next t ∧ InitEnded ws s t := by
  induction ws generalizing s with
  | nil => exact absurd rfl hne
  | cons w ws ih =>
    cases hs : s.sendAnswers with
    | nil => simp [hs, initAnswered] at ha
    | cons a as =>
      cases hf : initFailure a with
      | some e =>
        have hstep := h.step_wr hs
        rw [wrAnswered, wrFailure_eq_initFailure, hf] at hstep
        exact ⟨1, _, run_succ 0 hstep, initEnded_raiseFault hs hf⟩
      | none =>
        have hrun := h.run_two hs hf
        by_cases hws : ws = []
        · subst hws
          have hreason : (settled w a as s).reason = none := by simpa using h.reason
          exact ⟨2, _, hrun, (initEnded_initDone hreason).cons hs hf⟩
        · rw [if_neg hws] at hrun
          obtain ⟨n, t, hrest, hend⟩ := ih hws h.next (by simpa [initAnswered, hs, hf] using ha)
          exact ⟨2 + n, t, (run_add n hrun).trans hrest, hend.of_setPhase.cons hs hf⟩

/-- An accepted `INIT` leads from its arrival to the end the summary gives for the whole table. -/
theorem run_init_command {rest : List HostMove} (hr : s.resetIn = false) (hp : s.ph = .idle)
    (hsession : s.session = .uninitialized) (hreason : s.reason = none) (hs : s.hostScript = .cmd 0#1 :: rest)
    (ha : initAnswered s.initTable s.sendAnswers = true) :
    ∃ n t, run n s = .next t ∧ InitEnded s.initTable (setStep 0 (taken 0#1 rest s)) t := by
  have hcmd := step_of_cmd hr hp hs (i := .init) rfl
  by_cases hn : s.initTable = []
  · refine ⟨1, _, run_succ 0 (hcmd.trans (exec_init_of_empty hp hsession hn)), ?_⟩
    have hdone : emit (.rsp .ok) (setSession .ready (setStep 0 (taken 0#1 rest s))) =
        initDone (setStep 0 (taken 0#1 rest s)) := by
      simp [initDone, emit, setPhase, setSession, setStep, setHostScript, hp]
    rw [hn, hdone]
    exact initEnded_initDone hreason
  · obtain ⟨n, t, hrun, hend⟩ := run_init (s := setPhase .iWr (setStep 0 (taken 0#1 rest s))) hn
      ⟨by simpa using hr, rfl, by simpa using hreason, by simp⟩ (by simpa using ha)
    exact ⟨n + 1, t, (run_succ n (hcmd.trans (exec_init_of_nonempty hp hsession hn))).trans hrun, hend.of_setPhase⟩

/-- Settles O53: the summary for the whole table, read from the state after the command's arrival. -/
theorem initRefinesBigStep : Obligations.InitRefinesBigStep := by
  unfold Obligations.InitRefinesBigStep
  intro s rest hinv hr hp hsession hs ha
  obtain ⟨n, t, hrun, hend⟩ :=
    run_init_command hr hp hsession (hinv.reason_eq_none hsession (by decide)) hs ha
  refine ⟨n, t, hrun, hend.ph, ?_, hend.session, hend.reason, ?_, hend.hostScript, hend.sendAnswers, hend.recvAnswers,
    hend.rxbuf, hend.btn, hend.initTable⟩
  · simpa using hend.trace
  · simpa using hend.stepIx

end Sys2Proof.Safety
end

section
/-! `POLL` run step by step gives the summary of R172: the pacing delay, the arming write, and, where it is accepted, the read. -/

namespace Sys2Proof.Safety

open Sys2Proof.Machine

/-- The state after the pacing delay `d` of a `POLL` just taken. -/
def paced (d : Nat) (rest : List HostMove) (s : State) : State :=
  setPhase .pArm (emit (.delay d) (useFree (setPhase .pPace (taken 1#1 rest s))))

/-- The state after the arming write has been answered. -/
def armAsked (d : Nat) (rest : List HostMove) (a : SendAnswer) (as : List SendAnswer) (s : State) : State :=
  sent [0x00#8] a as (setTx0 0x00#8 (paced d rest s))

variable {s : State} {rest : List HostMove} {a : SendAnswer} {as : List SendAnswer}

/-- An accepted `POLL` comes to the arming write after some pacing delay within the bounds (R130). -/
theorem run_poll_to_arm (hr : s.resetIn = false) (hp : s.ph = .idle) (hsession : s.session = .ready)
    (hs : s.hostScript = .cmd 1#1 :: rest) : ∃ d, 10000 ≤ d ∧ d ≤ 20000 ∧ run 2 s = .next (paced d rest s) := by
  have hcmd := (step_of_cmd hr hp hs (i := .poll) rfl).trans (exec_poll_of_ready hp hsession)
  obtain ⟨d, hlo, hhi, hpace⟩ := exec_pace_of_pPace (s := setPhase .pPace (taken 1#1 rest s)) rfl
  have hstep := (step_of_phase (s := setPhase .pPace (taken 1#1 rest s)) (by simpa using hr) rfl).trans hpace
  exact ⟨d, hlo, hhi, by rw [run_succ 1 hcmd, run_succ 0 hstep, run_zero, paced]⟩

/-- Three steps come to the answer of the arming write. -/
theorem run_poll_to_answer (hr : s.resetIn = false) (hp : s.ph = .idle) (hsession : s.session = .ready)
    (hs : s.hostScript = .cmd 1#1 :: rest) (ha : s.sendAnswers = a :: as) :
    ∃ d, 10000 ≤ d ∧ d ≤ 20000 ∧ run 3 s = .next (armAnswered a (armAsked d rest a as s)) := by
  obtain ⟨d, hlo, hhi, hrun⟩ := run_poll_to_arm hr hp hsession hs
  have harm : step (paced d rest s) = .next (armAnswered a (armAsked d rest a as s)) :=
    (step_of_phase (by simpa [paced] using hr) rfl).trans (exec_arm_of_cons rfl (by simpa [paced] using ha))
  exact ⟨d, hlo, hhi, by rw [run_add 1 hrun, run_succ 0 harm, run_zero]⟩

/-- In `P_READ` with an answer a step goes on by it. -/
theorem step_of_pRead {b : RecvAnswer} {bs : List RecvAnswer} (hr : s.resetIn = false) (hp : s.ph = .pRead)
    (hb : s.recvAnswers = b :: bs) : step s = .next (rdrepAnswered b (received b bs s)) :=
  (step_of_phase hr (by rw [hp]; rfl)).trans (exec_rdrep_of_cons hp hb)

/-! ### The summary, by the answer to the read -/

/-- After an accepted arming write a failed read ends the poll. -/
theorem poll_summary_of_failure {k : Nat} {b : RecvAnswer} (hk : 1 ≤ k)
    (hb : b = .err ∨ ∃ d, b = .data d ∧ d.length ≠ 6) :
    pollFailure (.count k) b = some .readFailure ∧
      pollEvents (.count k) b = [.tx [0x00#8] (.count k), .rx 6 b, .rsp (.err .readFailure)] := by
  obtain ⟨k, rfl⟩ := Nat.exists_eq_add_of_le' hk
  rcases hb with rfl | ⟨d, rfl, hd⟩ <;> simp [pollEvents, pollFailure, *]

/-- After an accepted arming write a report of six bytes is decoded and published. -/
theorem poll_summary_of_report {k : Nat} {d : List Byte} (hk : 1 ≤ k) (hd : d.length = reportLen) :
    pollFailure (.count k) (.data d) = none ∧
      pollEvents (.count k) (.data d) = [.tx [0x00#8] (.count k), .rx 6 (.data d),
        .sink (.key .z (decodeReport (reportOf d hd)).zPressed), .sink (.key .c (decodeReport (reportOf d hd)).cPressed),
        .sink .sync,
        .rsp (.okButtons (decodeReport (reportOf d hd)).zPressed (decodeReport (reportOf d hd)).cPressed)] := by
  obtain ⟨k, rfl⟩ := Nat.exists_eq_add_of_le' hk
  have hsix : d.length = 6 := hd
  match d, hsix with
  | [b0, b1, b2, b3, b4, b5], _ => simp [pollEvents, pollFailure, decodeReport_eq, reportOf]

/-- Settles O54: three steps come to the answer of the arming write; if it is accepted, the read's answer ends the poll, or the
decode and the publication do. -/
theorem pollRefinesBigStep : Obligations.PollRefinesBigStep := by
  unfold Obligations.PollRefinesBigStep
  intro s rest a as hinv hr hp hsession hs hsend
  have hreason := hinv.reason_eq_none hsession (by decide)
  obtain ⟨d, hlo, hhi, hrun⟩ := run_poll_to_answer hr hp hsession hs hsend
  constructor
  · intro ha
    rw [armAnswered_of_failure ha] at hrun
    exact ⟨3, _, d, hrun, rfl, hlo, hhi, by simp [armAsked, paced]⟩
  · intro b bs ha hb
    cases a with
    | err => exact ha.elim
    | count k =>
      rw [armAnswered_of_le ha] at hrun
      have hread := step_of_pRead (s := setPhase .pRead (armAsked d rest (.count k) as s)) (b := b) (bs := bs)
        (by simpa [armAsked, paced] using hr) rfl (by simpa [armAsked, paced] using hb)
      rcases rdrepAnswered_cases b with ⟨report, hlen, rfl, hok⟩ | ⟨hfail, hbad⟩
      · obtain ⟨hnone, hevents⟩ := poll_summary_of_report ha hlen
        rw [hok] at hread
        have hend := run_two_of_pDecode (s := setPhase .pDecode (setRx (reportOf report hlen)
          (received (.data report) bs (setPhase .pRead (armAsked d rest (.count k) as s))))) rfl
          (by simpa [armAsked, paced] using hr)
        refine ⟨3 + (2 + 1), _, d, (run_add _ hrun).trans ((run_succ 2 hread).trans hend), rfl, hlo, hhi, ?_⟩
        rw [hnone, hevents]
        simp [decodedAndPublished, published, armAsked, paced, sessionAfter, hsession, hreason]
      · obtain ⟨hsome, hevents⟩ := poll_summary_of_failure ha hfail
        rw [hbad] at hread
        refine ⟨3 + (0 + 1), _, d, (run_add _ hrun).trans (run_succ 0 hread), rfl, hlo, hhi, ?_⟩
        rw [hsome, hevents]
        simp [armAsked, paced, sessionAfter]

end Sys2Proof.Safety
end
